-- ==== Sys2Proof/Word.lean ====
section
/-! DEFINITION. The fixed-width words of the block (00_scope.md R6, 10_state.md R20, 30_encoding.md R70). -/

namespace Sys2Proof

/-- A byte of the sensor burst or of the stimulus word's operand field (R7, R70). -/
abbrev Byte := BitVec 8

/-- A raw sample, ring slot or smoothed sample: signed 16-bit (`SLOT_W`, R6, R21, R23). -/
abbrev Sample := BitVec 16

/-- An intensity: signed 8-bit (`INT_W`, R6, R25). -/
abbrev Intensity := BitVec 8

/-- The period counter and the latched thresholds: unsigned 7-bit (`CNT_W`, `THR_W`, R26, R27). -/
abbrev Count := BitVec 7

/-- A write cursor: unsigned 4-bit (`CUR_W`, R6, R22). -/
abbrev Cursor := BitVec 4

/-- The index of a ring slot, 0..15 (R50). -/
abbrev Slot := Fin 16

/-- The sensor's three new-data flags (R78). -/
abbrev NdFlags := BitVec 3

/-- One stimulus word (R70). -/
abbrev Stimulus := BitVec 56

end Sys2Proof
end

