-- ==== Sys2Proof/Syntax.lean ====
section
/-! DEFINITION. The operations, sub-operations and events of spec/opcode_table.json: one constructor per row. -/

namespace Sys2Proof

/-- The three axes (R12). -/
inductive Axis where
  | x | y | z
  deriving DecidableEq, Repr

/-- The 20 rows of the operation table. The first seven are the operations a stimulus word selects (R74); the other
thirteen are the sub-operations and events that run inside them and have no encoding (R76). -/
inductive Instr where
  /-- RESET (R200) -/
  | reset
  /-- IDLE (R161) -/
  | idle
  /-- TICK (R130) -/
  | tick
  /-- SAMPLE rx, ry, rz (R162) -/
  | sample (rx ry rz : Sample)
  /-- TICK.SAMPLE rx, ry, rz (R164) -/
  | tickSample (rx ry rz : Sample)
  /-- SAMPLER nd, B0..B5 (R163) -/
  | sampler (nd : NdFlags) (b0 b1 b2 b3 b4 b5 : Byte)
  /-- TICK.SAMPLER nd, B0..B5 (R165) -/
  | tickSampler (nd : NdFlags) (b0 b1 b2 b3 b4 b5 : Byte)
  /-- UNPACK of one axis's two burst bytes (R90) -/
  | unpack (a : Axis) (b0 b1 : Byte)
  /-- NEWDATA of the three flags (R91) -/
  | newdata (nd : NdFlags)
  /-- FILT.PUSH of a raw value on one axis (R100) -/
  | filtPush (a : Axis) (r : Sample)
  /-- FILT.MEAN of one axis (R101) -/
  | filtMean (a : Axis)
  /-- CLS.ABS (R110) -/
  | clsAbs
  /-- CLS.REMAP (R111) -/
  | clsRemap
  /-- CLS.THRESH (R113) -/
  | clsThresh
  /-- CLS.INTENS (R114) -/
  | clsIntens
  /-- COMMIT (R167) -/
  | commit
  /-- PWM.PERIOD (R131) -/
  | pwmPeriod
  /-- PWM.CMPA (R132) -/
  | pwmCmpA
  /-- PWM.CMPB (R133) -/
  | pwmCmpB
  /-- PORTMAP (R150) -/
  | portMap
  deriving DecidableEq, Repr

end Sys2Proof
end

