-- ==== Sys2Proof/WellFormed.lean ====
section
/-! DEFINITION. Which instructions can be presented to the block. Operand widths are in the constructors' types;
what is left to check is that an instruction is an operation of its own and not a part of one. -/

namespace Sys2Proof

/-- An operation that one stimulus word selects (R11, R74). Sub-operations and events "have no encoding" and "are not
selected by stimulus bits" (R76), so a term that names one alone is ill formed. -/
def Instr.wellFormed : Instr → Bool
  | .reset => true
  | .idle => true
  | .tick => true
  | .sample _ _ _ => true
  | .tickSample _ _ _ => true
  | .sampler _ _ _ _ _ _ _ => true
  | .tickSampler _ _ _ _ _ _ _ => true
  | .unpack _ _ _ => false
  | .newdata _ => false
  | .filtPush _ _ => false
  | .filtMean _ => false
  | .clsAbs => false
  | .clsRemap => false
  | .clsThresh => false
  | .clsIntens => false
  | .commit => false
  | .pwmPeriod => false
  | .pwmCmpA => false
  | .pwmCmpB => false
  | .portMap => false

end Sys2Proof
end

