-- ==== Sys2Proof/Decode.lean ====
section
/-! DEFINITION. The stimulus word: its fields (30_encoding.md R70, R71), the decoder (R74, R75) and the encoder of
canonical words (R74). -/

namespace Sys2Proof

/-- The fields of a stimulus word, which are also the input wires of the block (R70, R71). -/
structure Fields where
  res  : Bool
  nd   : NdFlags
  raw  : Bool
  rst  : Bool
  tick : Bool
  smp  : Bool
  b0   : Byte
  b1   : Byte
  b2   : Byte
  b3   : Byte
  b4   : Byte
  b5   : Byte
  deriving DecidableEq, Repr

/-- The fields of `W`, by the bit positions of R70's table. -/
def Fields.ofWord (w : Stimulus) : Fields :=
  { res := w.getLsbD 55, nd := w.extractLsb' 52 3, raw := w.getLsbD 51, rst := w.getLsbD 50
    tick := w.getLsbD 49, smp := w.getLsbD 48
    b0 := w.extractLsb' 40 8, b1 := w.extractLsb' 32 8, b2 := w.extractLsb' 24 8
    b3 := w.extractLsb' 16 8, b4 := w.extractLsb' 8 8, b5 := w.extractLsb' 0 8 }

/-- The event byte `ev = W[55:48]` of the given fields. -/
def Fields.ev (f : Fields) : Byte :=
  BitVec.ofBool f.res ++ f.nd ++ BitVec.ofBool f.raw ++ BitVec.ofBool f.rst ++ BitVec.ofBool f.tick
    ++ BitVec.ofBool f.smp

/-- The word with the given fields: `ev`, then `B0` to `B5` (R70). -/
def Fields.toWord (f : Fields) : Stimulus :=
  f.ev ++ f.b0 ++ f.b1 ++ f.b2 ++ f.b3 ++ f.b4 ++ f.b5

/-- Why a bit string is no stimulus word. -/
inductive DecodeError where
  /-- `ev[7] = 1` is reserved: "must refuse such a word by name" (R75 (a)) -/
  | reservedEv7
  /-- R70: "There is no shorter or longer form" than seven bytes -/
  | wrongLength
  deriving DecidableEq, Repr

/-- A pre-assembled 16-bit operand, high byte first (R72). -/
def beSample (hi lo : Byte) : Sample := hi ++ lo

/-- The high byte of an operand. -/
def highByte (v : Sample) : Byte := v.extractLsb' 8 8

/-- The low byte of an operand. -/
def lowByte (v : Sample) : Byte := v.extractLsb' 0 8

/-- R74's list, from its second line on: the operation named by fields with `res = 0`. -/
def Fields.operation (f : Fields) : Instr :=
  if f.rst then .reset
  else if f.smp then
    if f.raw then
      if f.tick then .tickSampler f.nd f.b0 f.b1 f.b2 f.b3 f.b4 f.b5
      else .sampler f.nd f.b0 f.b1 f.b2 f.b3 f.b4 f.b5
    else if f.tick then .tickSample (beSample f.b0 f.b1) (beSample f.b2 f.b3) (beSample f.b4 f.b5)
    else .sample (beSample f.b0 f.b1) (beSample f.b2 f.b3) (beSample f.b4 f.b5)
  else if f.tick then .tick
  else .idle

/-- The decoder, total on 56-bit words (R74, R75). -/
def decode (w : Stimulus) : Except DecodeError Instr :=
  if (Fields.ofWord w).res then .error .reservedEv7 else .ok (Fields.ofWord w).operation

/-- The word whose bytes are given, most significant first, as R70 writes it (DESIGN CHOICE, log 13: the byte form). -/
def wordOfBytes : List Byte → Option Stimulus
  | [e, b0, b1, b2, b3, b4, b5] => some (e ++ b0 ++ b1 ++ b2 ++ b3 ++ b4 ++ b5)
  | _ => none

/-- The decoder, total on any bytes. -/
def decodeBytes (bs : List Byte) : Except DecodeError Instr :=
  match wordOfBytes bs with
  | some w => decode w
  | none => .error .wrongLength

/-- Fields with every bit 0. -/
def Fields.zero : Fields :=
  { res := false, nd := 0, raw := false, rst := false, tick := false, smp := false
    b0 := 0, b1 := 0, b2 := 0, b3 := 0, b4 := 0, b5 := 0 }

/-- Fields of a word that offers a pre-assembled sample (R72). -/
def Fields.ofSample (tick : Bool) (rx ry rz : Sample) : Fields :=
  { Fields.zero with tick := tick, smp := true
                     b0 := highByte rx, b1 := lowByte rx, b2 := highByte ry, b3 := lowByte ry
                     b4 := highByte rz, b5 := lowByte rz }

/-- The part of a burst's low byte that belongs to the 10-bit field: "`B1[5:0]`, `B3[5:0]` and `B5[5:0]` are not
examined" (R75 (e)). -/
def fieldBits (lo : Byte) : Byte := lo &&& 0xC0

/-- Fields of the canonical word that offers a raw burst: the unexamined bits of the low bytes are 0 (R73, R74, R75 (e)). -/
def Fields.ofBurst (tick : Bool) (nd : NdFlags) (b0 b1 b2 b3 b4 b5 : Byte) : Fields :=
  { Fields.zero with nd := nd, raw := true, tick := tick, smp := true
                     b0 := b0, b1 := fieldBits b1, b2 := b2, b3 := fieldBits b3, b4 := b4, b5 := fieldBits b5 }

/-- The fields of an operation's canonical word; none for a sub-operation or event (R76). -/
def Instr.fields : Instr → Option Fields
  | .reset => some { Fields.zero with rst := true }
  | .idle => some Fields.zero
  | .tick => some { Fields.zero with tick := true }
  | .sample rx ry rz => some (Fields.ofSample false rx ry rz)
  | .tickSample rx ry rz => some (Fields.ofSample true rx ry rz)
  | .sampler nd b0 b1 b2 b3 b4 b5 => some (Fields.ofBurst false nd b0 b1 b2 b3 b4 b5)
  | .tickSampler nd b0 b1 b2 b3 b4 b5 => some (Fields.ofBurst true nd b0 b1 b2 b3 b4 b5)
  | .unpack _ _ _ => none
  | .newdata _ => none
  | .filtPush _ _ => none
  | .filtMean _ => none
  | .clsAbs => none
  | .clsRemap => none
  | .clsThresh => none
  | .clsIntens => none
  | .commit => none
  | .pwmPeriod => none
  | .pwmCmpA => none
  | .pwmCmpB => none
  | .portMap => none

/-- The canonical word of an operation: "sets every unexamined bit to 0" (R74). -/
def encode (i : Instr) : Option Stimulus :=
  i.fields.map Fields.toWord

/-- The bits of the word that the decoder or the operation examines (R75 (b) to (e)): those of `ev` alone where no
sample is taken, the operand bytes too for SAMPLE, and `nd` and the ten field bits of each axis for the raw form. -/
def Instr.examined : Instr → Stimulus
  | .reset => 0x84000000000000
  | .idle => 0x87000000000000
  | .tick => 0x87000000000000
  | .sample _ _ _ => 0x8FFFFFFFFFFFFF
  | .tickSample _ _ _ => 0x8FFFFFFFFFFFFF
  | .sampler _ _ _ _ _ _ _ => 0xFFFFC0FFC0FFC0
  | .tickSampler _ _ _ _ _ _ _ => 0xFFFFC0FFC0FFC0
  | .unpack _ _ _ => 0
  | .newdata _ => 0
  | .filtPush _ _ => 0
  | .filtMean _ => 0
  | .clsAbs => 0
  | .clsRemap => 0
  | .clsThresh => 0
  | .clsIntens => 0
  | .commit => 0
  | .pwmPeriod => 0
  | .pwmCmpA => 0
  | .pwmCmpB => 0
  | .portMap => 0

/-- The operation with every unexamined operand bit 0: what its canonical word decodes to (R74, R75 (e)). Only the raw
forms have operand bits that are not examined. -/
def Instr.canonical : Instr → Instr
  | .reset => .reset
  | .idle => .idle
  | .tick => .tick
  | .sample rx ry rz => .sample rx ry rz
  | .tickSample rx ry rz => .tickSample rx ry rz
  | .sampler nd b0 b1 b2 b3 b4 b5 => .sampler nd b0 (fieldBits b1) b2 (fieldBits b3) b4 (fieldBits b5)
  | .tickSampler nd b0 b1 b2 b3 b4 b5 => .tickSampler nd b0 (fieldBits b1) b2 (fieldBits b3) b4 (fieldBits b5)
  | .unpack a b0 b1 => .unpack a b0 b1
  | .newdata nd => .newdata nd
  | .filtPush a r => .filtPush a r
  | .filtMean a => .filtMean a
  | .clsAbs => .clsAbs
  | .clsRemap => .clsRemap
  | .clsThresh => .clsThresh
  | .clsIntens => .clsIntens
  | .commit => .commit
  | .pwmPeriod => .pwmPeriod
  | .pwmCmpA => .pwmCmpA
  | .pwmCmpB => .pwmCmpB
  | .portMap => .portMap

/-- The host's view of the decoder: `w` is the table's number for the word (its bit 0 is W[0]), `nbits` how many of
its bits the table gives; bits above `nbits` are 0. The table gives every row the whole 56 bits. -/
def decodeTableWord (nbits w : Nat) : Option Instr :=
  match decode (BitVec.ofNat 56 (w % 2 ^ nbits)) with
  | .ok i => some i
  | .error _ => none

end Sys2Proof
end

