-- ==== Sys2Proof/Config.lean ====
section
/-! DEFINITION. The parameters of 00_scope.md R6: the constants of this hardware, the open port parameters,
and the free values of the points the spec leaves open. -/

namespace Sys2Proof

namespace Config

/-- `N_TAPS`: the ring capacity and averaging window (R6). -/
abbrev nTaps : Nat := 16

/-- `THRESH`: the strict classification threshold (R6, R113). -/
abbrev thresh : Int := 10

/-- `V_SAT_NEG`: the lower clamp of the vertical intensity (R6, R114). -/
abbrev vSatNeg : Int := -100

/-- `V_SAT_POS`: the upper clamp of the vertical intensity, 100 after conflict C1 (R6, R114). -/
abbrev vSatPos : Int := 100

/-- `H_SAT_NEG`: the lower clamp of the horizontal intensity (R6, R114). -/
abbrev hSatNeg : Int := -100

/-- `H_SAT_POS`: the upper clamp of the horizontal intensity (R6, R114). -/
abbrev hSatPos : Int := 100

/-- `PWM_STEPS`: the TICKs of one period (R6, R26). -/
abbrev pwmSteps : Nat := 100

end Config

/-- The open parameters of the two output ports (R6, R150). -/
structure PortParams where
  /-- `PORT_W` -/
  portW : Nat
  /-- `PA_CENTER_BIT` -/
  paCenter : Nat
  /-- `PA_RIGHT_BIT` -/
  paRight : Nat
  /-- `PA_UP_BIT` -/
  paUp : Nat
  /-- `PB_DOWN_BIT` -/
  pbDown : Nat
  /-- `PB_LEFT_BIT` -/
  pbLeft : Nat
  /-- `LED_ON_LEVEL`: true for 1, false for 0 -/
  ledOnLevel : Bool
  deriving DecidableEq, Repr, Inhabited

/-- What R150 asks of the parameters: the port-A positions in the lower half of the port, the port-B positions
in the upper half, the positions within a port distinct. (DESIGN CHOICE, log 5: the middle bit of a port of odd
width belongs to the lower half.) -/
def PortParams.valid (p : PortParams) : Bool :=
  decide (2 * p.paCenter < p.portW) && decide (2 * p.paRight < p.portW) && decide (2 * p.paUp < p.portW)
    && decide (p.portW ≤ 2 * p.pbDown) && decide (p.pbDown < p.portW)
    && decide (p.portW ≤ 2 * p.pbLeft) && decide (p.pbLeft < p.portW)
    && p.paCenter != p.paRight && p.paCenter != p.paUp && p.paRight != p.paUp && p.pbDown != p.pbLeft

/-- The placeholder values of R150. They test the mapping; no claim rests on them (D15). -/
def PortParams.defaults : PortParams :=
  { portW := 8, paCenter := 0, paRight := 1, paUp := 2, pbDown := 6, pbLeft := 7, ledOnLevel := true }

namespace Config

/-- Free: the port parameters of the board, which the spec leaves open (R6, D15; log 5). -/
opaque portsAsBuilt : PortParams

/-- The port parameters of the model: the board's, whatever they are, as far as R150 allows them. Every choice that
R150 allows is a possible value (log 5). -/
def ports : PortParams :=
  if portsAsBuilt.valid then portsAsBuilt else PortParams.defaults

/-- `PORT_W` of the model. -/
abbrev portW : Nat := ports.portW

end Config

/-- The value of one output port. -/
abbrev Port := BitVec Config.portW

namespace Config

/-- Free: the value port A has when PORTMAP reads it, at the n-th application (R61, R152, U9; log 4). -/
opaque portAOld : Nat → Port

/-- Free: the value port B has when PORTMAP reads it, at the n-th application (R61, R152, U9; log 4). -/
opaque portBOld : Nat → Port

/-- Free: what a 7-bit threshold holds after loading an intensity whose magnitude 7 bits cannot hold. Only -128 is
such an intensity, and no rule states the result (V4, R27; log 8). -/
opaque thrUnstated : Intensity → Count

end Config

end Sys2Proof
end

