-- ==== Sys2Proof/Machine/Leds.lean ====
section
/-! DEFINITION. The five LED bits and the Port Driver's pure mapping (10_state.md R24, 44_port_driver.md R150, R152). -/

namespace Sys2Proof.Machine

/-- LedState and the output register: five independent booleans (R24, R28). -/
structure Leds where
  center : Bool
  up : Bool
  down : Bool
  left : Bool
  right : Bool
  deriving DecidableEq, Repr

/-- All five LEDs off. -/
def Leds.off : Leds := { center := false, up := false, down := false, left := false, right := false }

/-- The five bits as a vector: center, up, down, left, right are bits 4 to 0 (R24, R79). -/
def Leds.toBits (l : Leds) : BitVec 5 :=
  BitVec.ofBool l.center ++ BitVec.ofBool l.up ++ BitVec.ofBool l.down ++ BitVec.ofBool l.left ++ BitVec.ofBool l.right

/-- The five LEDs that a vector stands for (R24, R79). -/
def Leds.ofBits (b : BitVec 5) : Leds :=
  { center := b.getLsbD 4, up := b.getLsbD 3, down := b.getLsbD 2, left := b.getLsbD 1, right := b.getLsbD 0 }

/-- Writes bit `p` of a port and leaves the others. -/
def putBit {w : Nat} (v : BitVec w) (p : Nat) (b : Bool) : BitVec w :=
  if b then v ||| BitVec.twoPow w p else v &&& ~~~BitVec.twoPow w p

/-- `lvl(b)` of R150: `b` if `LED_ON_LEVEL` is 1, else `1 - b`. -/
def lvl (p : PortParams) (b : Bool) : Bool :=
  if p.ledOnLevel then b else !b

/-- `pa_new` of R150. -/
def portAMap {w : Nat} (p : PortParams) (out : Leds) (old : BitVec w) : BitVec w :=
  putBit (putBit (putBit old p.paCenter (lvl p out.center)) p.paRight (lvl p out.right)) p.paUp (lvl p out.up)

/-- `pb_new` of R150. -/
def portBMap {w : Nat} (p : PortParams) (out : Leds) (old : BitVec w) : BitVec w :=
  putBit (putBit old p.pbDown (lvl p out.down)) p.pbLeft (lvl p out.left)

end Sys2Proof.Machine
end

