-- ==== Sys2Proof/Machine/State.lean ====
section
/-! DEFINITION. The state of the block (10_state.md R20), the model's own fields beside it, the reasons to stop, and
the state after reset (R36, R200). -/

namespace Sys2Proof.Machine

/-- One lane of the Smoothing Filter: its ring buffer, write cursor and smoothed sample (R21, R22, R23, R102). -/
structure Lane where
  /-- `buf_a[0..15]` -/
  buf : Vector Sample 16
  /-- `cur_a` -/
  cur : Cursor
  /-- `sm_a` -/
  sm : Sample
  deriving DecidableEq, Repr

/-- The complete state of the block: R20's table, "and nothing else". -/
structure Regs where
  /-- `buf_x`, `cur_x`, `sm_x` -/
  x : Lane
  /-- `buf_y`, `cur_y`, `sm_y` -/
  y : Lane
  /-- `buf_z`, `cur_z`, `sm_z` -/
  z : Lane
  /-- LedState, shared by the two agents (R24) -/
  led : Leds
  /-- vertical intensity (R25) -/
  vint : Intensity
  /-- horizontal intensity (R25) -/
  hint : Intensity
  /-- period counter (R26) -/
  cnt : Count
  /-- latched vertical threshold (R27) -/
  thrA : Count
  /-- latched horizontal threshold (R27) -/
  thrB : Count
  /-- LED output register (R28) -/
  out : Leds
  deriving DecidableEq, Repr

/-- The values inside one operation, which "vanish at its end" (R34): where a sub-operation leaves its result for the
next one. The MODEL's own (log 6). -/
structure Wires where
  /-- UNPACK's results, the raw operands (R90) -/
  rawX : Sample
  rawY : Sample
  rawZ : Sample
  /-- NEWDATA's result: accept or skip (R91) -/
  accept : Bool
  /-- CLS.ABS's results (R110) -/
  ax : Nat
  ay : Nat
  az : Nat
  /-- CLS.REMAP's results x' and y' (R111), exact integers (`CLS_W`, D12) -/
  remX : Int
  remY : Int
  /-- CLS.THRESH's candidate LedState (R113) -/
  cand : Leds
  /-- CLS.INTENS's candidate intensities (R114) -/
  candV : Intensity
  candH : Intensity
  deriving DecidableEq, Repr

/-- The machine: the block's registers, the two ports it drives, and the model's own fields. -/
structure State extends Regs where
  /-- what PORTMAP last drove to port A (R150) -/
  portA : Port
  /-- what PORTMAP last drove to port B (R150) -/
  portB : Port
  /-- MODEL's own: how many PORTMAPs were applied, where the free old port values are read (log 4) -/
  portOps : Nat
  /-- MODEL's own: the values inside the running operation (log 6) -/
  wires : Wires
  /-- MODEL's own: the stimulus words not yet consumed, oldest first (log 1) -/
  stim : List Stimulus
  deriving DecidableEq, Repr

/-- Why the machine stops with a fault: never. "The block raises no synchronous exception" (R180). -/
inductive Fault where
  deriving DecidableEq, Repr

/-- Why a step has no meaning. -/
inductive Refusal where
  /-- Raised by an arm of `exec` whose instruction has no meaning yet; none is left. Safe: the model stops. -/
  | notModelled (mnemonic : String)
  /-- Raised by `step` on a word with `ev[7] = 1`: "reserved, not a stimulus word"; "must refuse such a word by name"
  (R74, R75 (a), V1). Safe: the hardware has no wire for that bit. -/
  | reservedStimulus
  deriving DecidableEq, Repr

/-- A lane after RESET: "zero-filled", cursor and mean 0 (R36). -/
def Lane.reset : Lane := { buf := Vector.replicate 16 0, cur := 0, sm := 0 }

/-- R36: the reset column of R20's table. -/
def Regs.reset : Regs :=
  { x := Lane.reset, y := Lane.reset, z := Lane.reset, led := Leds.off, vint := 0, hint := 0
    cnt := 0, thrA := 0, thrB := 0, out := Leds.off }

/-- No value inside an operation: what the wires hold between two operations (log 6). -/
def Wires.idle : Wires :=
  { rawX := 0, rawY := 0, rawZ := 0, accept := false, ax := 0, ay := 0, az := 0, remX := 0, remY := 0
    cand := Leds.off, candV := 0, candH := 0 }

/-- The state after RESET: the registers of R36, and the ports as RESET's PORTMAP leaves them, "all five LEDs off"
over the first free old values (R200, log 4). No stimulus word is pending (log 1). -/
def State.reset : State :=
  { Regs.reset with
    portA := portAMap Config.ports Leds.off (Config.portAOld 0)
    portB := portBMap Config.ports Leds.off (Config.portBOld 0)
    portOps := 1
    wires := Wires.idle
    stim := [] }

end Sys2Proof.Machine
end

