-- ==== Sys2Proof/Machine/Ops.lean ====
section
/-! DEFINITION. The named operations over the ring memory, the lanes, the ports and the stimulus stream, and the exact
arithmetic of 00_scope.md R9. There is no operation that takes an exception: "the list of exception causes is therefore
empty, and `raise` appears in no rule" (60_exceptions.md R180); the three interrupt events are wired actions of TICK
(R185) and stand in Pwm.lean. -/

namespace Sys2Proof.Machine

/-- `tdiv(a, n)`: integer division that truncates toward zero (R9). -/
def tdiv (a n : Int) : Int := Int.tdiv a n

/-- `clamp(a, lo, hi)` (R9). -/
def clamp (a lo hi : Int) : Int :=
  if a < lo then lo else if hi < a then hi else a

/-- The lane of an axis. -/
def State.lane (s : State) : Axis → Lane
  | .x => s.x
  | .y => s.y
  | .z => s.z

/-- Replaces the lane of an axis. -/
def State.setLane (s : State) (a : Axis) (l : Lane) : State :=
  match a with
  | .x => { s with x := l }
  | .y => { s with y := l }
  | .z => { s with z := l }

/-- The slot a cursor names (R22, R53). -/
def slotOf (c : Cursor) : Slot := ⟨c.toNat, c.isLt⟩

/-- A cursor advanced by one modulo 16 (R22, R100). -/
def nextCursor (c : Cursor) : Cursor := BitVec.ofNat 4 ((c.toNat + 1) % Config.nTaps)

/-- `MemRead((a, i), 1)` (R51). -/
def memRead (s : State) (a : Axis) (i : Slot) : Sample := (s.lane a).buf[i]

/-- `MemWrite((a, i), 1, v)` (R51): "sets `buf_a[i] <- v` ... and changes nothing else". -/
def memWrite (s : State) (a : Axis) (i : Slot) (v : Sample) : State :=
  s.setLane a { s.lane a with buf := (s.lane a).buf.set i v }

/-- The 16 slot indices, in R101's order. -/
def slots : List Slot := [0, 1, 2, 3, 4, 5, 6, 7, 8, 9, 10, 11, 12, 13, 14, 15]

/-- The sum of all 16 slots of an axis, exact (R101). -/
def ringSum (s : State) (a : Axis) : Int :=
  slots.foldl (fun sum i => sum + (memRead s a i).toInt) 0

/-- The truncated mean of an axis's 16 slots as a 16-bit register value (R101). -/
def ringMean (s : State) (a : Axis) : Sample :=
  BitVec.ofInt 16 (tdiv (ringSum s a) Config.nTaps)

/-- Ends an operation: the values inside it vanish (R34; log 6). -/
def dropWires (s : State) : State := { s with wires := Wires.idle }

/-- PORTMAP's read-modify-write of the two ports: the old values are the environment's, free at each application
(R61, R150, R152; log 4). -/
def drivePorts (s : State) : State :=
  { s with
    portA := portAMap Config.ports s.out (Config.portAOld s.portOps)
    portB := portBMap Config.ports s.out (Config.portBOld s.portOps)
    portOps := s.portOps + 1 }

/-- Takes the next stimulus word. When none is given, all inputs are 0, which is the word of IDLE (R161; log 2). -/
def takeWord (s : State) : Stimulus × State :=
  match s.stim with
  | [] => (0, s)
  | w :: rest => (w, { s with stim := rest })

/-- Puts a word where `takeWord` finds it next (log 1). -/
def offerWord (s : State) (w : Stimulus) : State := { s with stim := w :: s.stim }

/-- The refusal of a bit string that is no stimulus word (R75 (a)). -/
def refusalOf : DecodeError → Refusal
  | .reservedEv7 => .reservedStimulus
  | .wrongLength => .reservedStimulus

end Sys2Proof.Machine
end

