-- ==== Sys2Proof/Machine/Flags.lean ====
section
/-! DEFINITION. Every computation of LED bits, the block's only status flags (10_state.md R24): the classifier's
threshold tests (R113), the scheduler's sets by sign (R131) and its clears of a pair (R132, R133). -/

namespace Sys2Proof.Machine

/-- CLS.THRESH's candidate, statement by statement (R113). -/
def threshLeds (x' y' : Int) : Leds :=
  let c0 : Leds := { center := true, up := false, down := false, left := false, right := false }
  let c1 := if Config.thresh < x' then { c0 with up := true, center := false } else c0
  let c2 := if x' < -Config.thresh then { c1 with down := true, center := false } else c1
  let c3 := if Config.thresh < y' then { c2 with right := true, center := false } else c2
  if y' < -Config.thresh then { c3 with left := true, center := false } else c3

/-- PWM.PERIOD's four sets, statement by statement (R131): "a set, never a clear". -/
def setBySign (vint hint : Intensity) (led : Leds) : Leds :=
  let l1 := if 0 < vint.toInt then { led with down := true } else led
  let l2 := if vint.toInt < 0 then { l1 with up := true } else l1
  let l3 := if 0 < hint.toInt then { l2 with right := true } else l2
  if hint.toInt < 0 then { l3 with left := true } else l3

/-- The vertical pair turned off (R132). -/
def Leds.clearVertical (l : Leds) : Leds := { l with up := false, down := false }

/-- The horizontal pair turned off (R133). -/
def Leds.clearHorizontal (l : Leds) : Leds := { l with left := false, right := false }

end Sys2Proof.Machine
end

