-- ==== Sys2Proof/Machine/Classifier.lean ====
section
/-! DEFINITION. The Orientation Classifier: CLS.ABS, CLS.REMAP, CLS.THRESH, CLS.INTENS (42_classifier.md), in exact
integers (`CLS_W`, D12), and CLASSIFY, the four as one pure function (R115). -/

namespace Sys2Proof.Machine

/-- The remap of R111: the dominant-axis test, "x checked before y", all comparisons strict. -/
def remapXY (x y z : Int) (ax ay az : Nat) : Int × Int :=
  if az < ax ∧ ay < ax then (if 0 < x then -z else z, 0)
  else if ax < ay ∧ az < ay then (0, if 0 < y then -z else z)
  else (x, y)

/-- The vertical intensity of R114: `clamp(-x', V_SAT_NEG, V_SAT_POS)`. -/
def vertIntensity (x' : Int) : Intensity :=
  BitVec.ofInt 8 (clamp (-x') Config.vSatNeg Config.vSatPos)

/-- The horizontal intensity of R114: `clamp(y', H_SAT_NEG, H_SAT_POS)`. -/
def horizIntensity (y' : Int) : Intensity :=
  BitVec.ofInt 8 (clamp y' Config.hSatNeg Config.hSatPos)

/-- `Classify(x, y, z)` of R115: the four sub-operations as one function. -/
def classify (x y z : Sample) : Leds × Intensity × Intensity :=
  let p := remapXY x.toInt y.toInt z.toInt x.toInt.natAbs y.toInt.natAbs z.toInt.natAbs
  (threshLeds p.1 p.2, vertIntensity p.1, horizIntensity p.2)

/-- CLS.ABS (R110). -/
def clsAbsOp (s : State) : State :=
  { s with wires := { s.wires with ax := s.x.sm.toInt.natAbs, ay := s.y.sm.toInt.natAbs, az := s.z.sm.toInt.natAbs } }

/-- CLS.REMAP (R111, R112), on the smoothed values and CLS.ABS's results. -/
def clsRemapOp (s : State) : State :=
  let p := remapXY s.x.sm.toInt s.y.sm.toInt s.z.sm.toInt s.wires.ax s.wires.ay s.wires.az
  { s with wires := { s.wires with remX := p.1, remY := p.2 } }

/-- CLS.THRESH (R113), on CLS.REMAP's results. -/
def clsThreshOp (s : State) : State :=
  { s with wires := { s.wires with cand := threshLeds s.wires.remX s.wires.remY } }

/-- CLS.INTENS (R114), on CLS.REMAP's results. -/
def clsIntensOp (s : State) : State :=
  { s with wires := { s.wires with candV := vertIntensity s.wires.remX, candH := horizIntensity s.wires.remY } }

/-- CLS.ABS as an instruction. -/
def execClsAbs (s : State) : Host.Outcome State Fault Refusal := .next (clsAbsOp s)

/-- CLS.REMAP as an instruction. -/
def execClsRemap (s : State) : Host.Outcome State Fault Refusal := .next (clsRemapOp s)

/-- CLS.THRESH as an instruction. -/
def execClsThresh (s : State) : Host.Outcome State Fault Refusal := .next (clsThreshOp s)

/-- CLS.INTENS as an instruction. -/
def execClsIntens (s : State) : Host.Outcome State Fault Refusal := .next (clsIntensOp s)

end Sys2Proof.Machine
end

