-- ==== Sys2Proof/Machine/Filter.lean ====
section
/-! DEFINITION. The Smoothing Filter: FILT.PUSH and FILT.MEAN (41_filter.md). -/

namespace Sys2Proof.Machine

/-- FILT.PUSH (R100): "overwrite the buffer slot at the current cursor, advance the cursor modulo 16", in that order. -/
def filtPushOp (a : Axis) (r : Sample) (s : State) : State :=
  let s1 := memWrite s a (slotOf (s.lane a).cur) r
  s1.setLane a { s1.lane a with cur := nextCursor (s1.lane a).cur }

/-- FILT.MEAN (R101): `sm_a <- tdiv(sum, 16)`. -/
def filtMeanOp (a : Axis) (s : State) : State :=
  s.setLane a { s.lane a with sm := ringMean s a }

/-- FILT.PUSH as an instruction. -/
def execFiltPush (a : Axis) (r : Sample) (s : State) : Host.Outcome State Fault Refusal :=
  .next (filtPushOp a r s)

/-- FILT.MEAN as an instruction. -/
def execFiltMean (a : Axis) (s : State) : Host.Outcome State Fault Refusal :=
  .next (filtMeanOp a s)

end Sys2Proof.Machine
end

