-- ==== Sys2Proof/Machine/PortDriver.lean ====
section
/-! DEFINITION. The Port Driver: PORTMAP (44_port_driver.md). The mapping itself is `portAMap`, `portBMap` in Leds.lean. -/

namespace Sys2Proof.Machine

/-- PORTMAP (R150): drives both ports from `out`. -/
def portMapOp (s : State) : State := drivePorts s

/-- PORTMAP as an instruction. -/
def execPortMap (s : State) : Host.Outcome State Fault Refusal := .next (portMapOp s)

end Sys2Proof.Machine
end

