-- ==== Sys2Proof/Machine/Pwm.lean ====
section
/-! DEFINITION. The Brightness Scheduler: TICK and the events PWM.PERIOD, PWM.CMPA, PWM.CMPB (43_pwm.md). An event is
raised and completed inside the TICK that causes it (60_exceptions.md R183, R185). -/

namespace Sys2Proof.Machine

/-- `(cnt + 1) mod PWM_STEPS` (R26, R130). -/
def nextCount (c : Count) : Count := BitVec.ofNat 7 ((c.toNat + 1) % Config.pwmSteps)

/-- `abs` of an intensity as a 7-bit threshold (R27, R131). The magnitude 128 does not fit and no rule says what the
register then holds (V4; log 8). -/
def thresholdOf (v : Intensity) : Count :=
  if v.toInt.natAbs < 128 then BitVec.ofNat 7 v.toInt.natAbs else Config.thrUnstated v

/-- PWM.PERIOD (R131), statement by statement. -/
def pwmPeriodOp (s : State) : State :=
  let s1 := { s with led := setBySign s.vint s.hint s.led }
  let s2 := { s1 with thrA := thresholdOf s1.vint, thrB := thresholdOf s1.hint }
  let s3 := { s2 with out := s2.led }
  portMapOp s3

/-- PWM.CMPA (R132). -/
def pwmCmpAOp (s : State) : State :=
  portMapOp { s with led := s.led.clearVertical, out := s.out.clearVertical }

/-- PWM.CMPB (R133). -/
def pwmCmpBOp (s : State) : State :=
  portMapOp { s with led := s.led.clearHorizontal, out := s.out.clearHorizontal }

/-- TICK (R130): advance the counter and raise the events that are due. -/
def tickOp (s : State) : State :=
  let c := nextCount s.cnt
  let s1 := { s with cnt := c }
  if c = 0 then pwmPeriodOp s1
  else
    let s2 := if c = s1.thrA then pwmCmpAOp s1 else s1
    if c = s2.thrB then pwmCmpBOp s2 else s2

/-- PWM.PERIOD as an instruction. -/
def execPwmPeriod (s : State) : Host.Outcome State Fault Refusal := .next (pwmPeriodOp s)

/-- PWM.CMPA as an instruction. -/
def execPwmCmpA (s : State) : Host.Outcome State Fault Refusal := .next (pwmCmpAOp s)

/-- PWM.CMPB as an instruction. -/
def execPwmCmpB (s : State) : Host.Outcome State Fault Refusal := .next (pwmCmpBOp s)

/-- TICK as an instruction. -/
def execTick (s : State) : Host.Outcome State Fault Refusal := .next (tickOp s)

end Sys2Proof.Machine
end

