-- ==== Sys2Proof/Machine/Operands.lean ====
section
/-! DEFINITION. The operand forms that need work: the sensor's 10-bit field (30_encoding.md R77) and its new-data flags
(R78). The pre-assembled form of R72 is the decoder's `beSample`. -/

namespace Sys2Proof.Machine

/-- The 10-bit field of two burst bytes, `(b0 << 2) | (b1 >> 6)`; the shifts drop nothing of b0 and b1's low six bits
(R77, R90). -/
def sensorField (b0 b1 : Byte) : Sample :=
  (b0.setWidth 16 <<< 2) ||| (b1.setWidth 16 >>> 6)

/-- `Unpack(b0, b1)` of R90: "OR in the upper 6 bits as 1s" when field bit 9 is set. -/
def unpackSample (b0 b1 : Byte) : Sample :=
  if (sensorField b0 b1).getLsbD 9 then sensorField b0 b1 ||| 0xFC00 else sensorField b0 b1

/-- `NewData(nd)` of R91: only `0b111`, "fully set", accepts. -/
def newDataAccepts (nd : NdFlags) : Bool := nd == 0b111

/-- The raw operand UNPACK left for an axis. -/
def Wires.raw (w : Wires) : Axis → Sample
  | .x => w.rawX
  | .y => w.rawY
  | .z => w.rawZ

/-- Leaves a raw operand for an axis. -/
def Wires.setRaw (w : Wires) (a : Axis) (v : Sample) : Wires :=
  match a with
  | .x => { w with rawX := v }
  | .y => { w with rawY := v }
  | .z => { w with rawZ := v }

end Sys2Proof.Machine
end

