-- ==== Sys2Proof/Machine/Sensor.lean ====
section
/-! DEFINITION. The sensor front end: UNPACK and NEWDATA (40_sensor_unpack.md). -/

namespace Sys2Proof.Machine

/-- UNPACK (R90): the result is the raw operand of its axis; no register is written. -/
def unpackOp (a : Axis) (b0 b1 : Byte) (s : State) : State :=
  { s with wires := s.wires.setRaw a (unpackSample b0 b1) }

/-- NEWDATA (R91): the result is accept or skip; no register is written. -/
def newdataOp (nd : NdFlags) (s : State) : State :=
  { s with wires := { s.wires with accept := newDataAccepts nd } }

/-- UNPACK as an instruction. -/
def execUnpack (a : Axis) (b0 b1 : Byte) (s : State) : Host.Outcome State Fault Refusal :=
  .next (unpackOp a b0 b1 s)

/-- NEWDATA as an instruction. -/
def execNewdata (nd : NdFlags) (s : State) : Host.Outcome State Fault Refusal :=
  .next (newdataOp nd s)

end Sys2Proof.Machine
end

