-- ==== Sys2Proof/Machine/System.lean ====
section
/-! DEFINITION. The top-level operations: RESET (70_reset_and_hazards.md R200), IDLE, SAMPLE, SAMPLER, TICK.SAMPLE,
TICK.SAMPLER and COMMIT (45_system_ops.md). Each is one atomic state change (20_memory.md R54). -/

namespace Sys2Proof.Machine

/-- RESET (R200): every register at its reset value, then PORTMAP. Words still pending stay pending (log 3). -/
def resetOp (s : State) : State :=
  portMapOp { s with toRegs := Regs.reset, wires := Wires.idle }

/-- IDLE (R161): "no state change". -/
def idleOp (s : State) : State := s

/-- COMMIT (R167): one indivisible write of the triple. -/
def commitOp (s : State) : State :=
  { s with led := s.wires.cand, vint := s.wires.candV, hint := s.wires.candH }

/-- The filter's part of SAMPLE: three pushes, then three means (R102, R162). -/
def filterSample (rx ry rz : Sample) (s : State) : State :=
  filtMeanOp .z (filtMeanOp .y (filtMeanOp .x (filtPushOp .z rz (filtPushOp .y ry (filtPushOp .x rx s)))))

/-- The classifier's part of SAMPLE: the four sub-operations in order (R115, R162). -/
def classifySample (s : State) : State :=
  clsIntensOp (clsThreshOp (clsRemapOp (clsAbsOp s)))

/-- SAMPLE (R162): the whole synchronous pipeline; the values inside it vanish at its end (R34). -/
def sampleOp (rx ry rz : Sample) (s : State) : State :=
  dropWires (commitOp (classifySample (filterSample rx ry rz s)))

/-- `SampleRaw` (R163): NEWDATA, then either UNPACK of the three axes and SAMPLE, or the skip cycle, which changes
nothing at all. -/
def sampleRawOp (nd : NdFlags) (b0 b1 b2 b3 b4 b5 : Byte) (s : State) : State :=
  let s1 := newdataOp nd s
  if s1.wires.accept then
    let s2 := unpackOp .z b4 b5 (unpackOp .y b2 b3 (unpackOp .x b0 b1 s1))
    sampleOp (s2.wires.raw .x) (s2.wires.raw .y) (s2.wires.raw .z) s2
  else s

/-- RESET as an instruction. -/
def execReset (s : State) : Host.Outcome State Fault Refusal := .next (resetOp s)

/-- IDLE as an instruction. -/
def execIdle (s : State) : Host.Outcome State Fault Refusal := .next (idleOp s)

/-- COMMIT as an instruction. -/
def execCommit (s : State) : Host.Outcome State Fault Refusal := .next (commitOp s)

/-- SAMPLE as an instruction. -/
def execSample (rx ry rz : Sample) (s : State) : Host.Outcome State Fault Refusal :=
  .next (sampleOp rx ry rz s)

/-- SAMPLER as an instruction. -/
def execSampler (nd : NdFlags) (b0 b1 b2 b3 b4 b5 : Byte) (s : State) : Host.Outcome State Fault Refusal :=
  .next (sampleRawOp nd b0 b1 b2 b3 b4 b5 s)

/-- TICK.SAMPLE (R164): "`Tick(); Sample(rx, ry, rz)`, in this order, as one step". -/
def execTickSample (rx ry rz : Sample) (s : State) : Host.Outcome State Fault Refusal :=
  .next (sampleOp rx ry rz (tickOp s))

/-- TICK.SAMPLER (R165): `Tick(); SampleRaw(...)`, in this order, as one step. -/
def execTickSampler (nd : NdFlags) (b0 b1 b2 b3 b4 b5 : Byte) (s : State) : Host.Outcome State Fault Refusal :=
  .next (sampleRawOp nd b0 b1 b2 b3 b4 b5 (tickOp s))

end Sys2Proof.Machine
end

