-- ==== Sys2Proof/Machine/Dispatch.lean ====
section
/-! DEFINITION. The dispatch: one arm per row of spec/opcode_table.json. -/

namespace Sys2Proof.Machine

def exec (i : Instr) (s : State) : Host.Outcome State Fault Refusal :=
  match i with
  | .reset => Sys2Proof.Machine.execReset s
  | .idle => Sys2Proof.Machine.execIdle s
  | .tick => Sys2Proof.Machine.execTick s
  | .sample rx ry rz => Sys2Proof.Machine.execSample rx ry rz s
  | .tickSample rx ry rz => Sys2Proof.Machine.execTickSample rx ry rz s
  | .sampler nd b0 b1 b2 b3 b4 b5 => Sys2Proof.Machine.execSampler nd b0 b1 b2 b3 b4 b5 s
  | .tickSampler nd b0 b1 b2 b3 b4 b5 => Sys2Proof.Machine.execTickSampler nd b0 b1 b2 b3 b4 b5 s
  | .unpack a b0 b1 => Sys2Proof.Machine.execUnpack a b0 b1 s
  | .newdata nd => Sys2Proof.Machine.execNewdata nd s
  | .filtPush a r => Sys2Proof.Machine.execFiltPush a r s
  | .filtMean a => Sys2Proof.Machine.execFiltMean a s
  | .clsAbs => Sys2Proof.Machine.execClsAbs s
  | .clsRemap => Sys2Proof.Machine.execClsRemap s
  | .clsThresh => Sys2Proof.Machine.execClsThresh s
  | .clsIntens => Sys2Proof.Machine.execClsIntens s
  | .commit => Sys2Proof.Machine.execCommit s
  | .pwmPeriod => Sys2Proof.Machine.execPwmPeriod s
  | .pwmCmpA => Sys2Proof.Machine.execPwmCmpA s
  | .pwmCmpB => Sys2Proof.Machine.execPwmCmpB s
  | .portMap => Sys2Proof.Machine.execPortMap s

end Sys2Proof.Machine
end

