-- ==== Sys2Proof/Machine/Step.lean ====
section
/-! DEFINITION. The step (45_system_ops.md R160): one stimulus word is consumed and its operation applied atomically. -/

namespace Sys2Proof.Machine

/-- `Step(S, W)` of R160, with `W` the next word of the stream; a reserved word is refused by name (R75 (a)). -/
def step (s : State) : Host.Outcome State Fault Refusal :=
  match decode (takeWord s).1 with
  | .ok i => exec i (takeWord s).2
  | .error e => .refused (refusalOf e)

/-- `s` with one more word, the next one that `step` takes (log 1). The table gives every row 56 bits; bits of `w`
above `nbits` count as 0. -/
def State.withFetchWord (s : State) (nbits w : Nat) : State :=
  offerWord s (BitVec.ofNat 56 (w % 2 ^ nbits))

end Sys2Proof.Machine
end

