-- ==== Sys2Proof/Machine/CachedSum.lean ====
section
/-! DEFINITION. The running-sum form of the filter that 41_filter.md R105 licenses. It is another way to compute the
same means, not state of the machine: "`acc_a` is not architectural state". -/

namespace Sys2Proof.Machine

/-- The cached sum after a push, taken "before overwriting the slot": `acc_a - buf_a[cur_a] + r_a` (R105). -/
def accAfterPush (s : State) (a : Axis) (r : Sample) (acc : Int) : Int :=
  acc - (memRead s a (slotOf (s.lane a).cur)).toInt + r.toInt

/-- The mean from the cached sum: `tdiv(acc_a, 16)` (R105). -/
def meanOfAcc (acc : Int) : Sample := BitVec.ofInt 16 (tdiv acc Config.nTaps)

/-- The cached sum is right for an axis: it equals the sum of the slots (R63, R105). -/
def AccIs (s : State) (a : Axis) (acc : Int) : Prop := acc = ringSum s a

end Sys2Proof.Machine
end

