-- ==== Sys2Proof/Machine/DownCount.lean ====
section
/-! DEFINITION. The down-counting form of the scheduler that 43_pwm.md R136 describes: two counters loaded at the period
start and decremented by every TICK. The architectural registers are those of `State`; the counters are the
implementation's. -/

namespace Sys2Proof.Machine

/-- An implementation in the down-counting form. -/
structure DownCount where
  st : State
  downA : Count
  downB : Count
  deriving DecidableEq, Repr

/-- One decrement: "decrement each non-zero one per TICK". -/
def decrement (c : Count) : Count := if c = 0 then 0 else c - 1

/-- The counter "reaches 0 by a decrement"; one that holds 0 already "raises nothing". -/
def expires (c : Count) : Bool := c != 0 && decrement c == 0

/-- TICK in the down-counting form (R136). -/
def downTick (d : DownCount) : DownCount :=
  let c := nextCount d.st.cnt
  let s1 := { d.st with cnt := c }
  if c = 0 then
    { st := pwmPeriodOp s1, downA := thresholdOf s1.vint, downB := thresholdOf s1.hint }
  else
    let s2 := if expires d.downA then pwmCmpAOp s1 else s1
    { st := if expires d.downB then pwmCmpBOp s2 else s2
      downA := decrement d.downA, downB := decrement d.downB }

/-- The counters agree with the registers: each holds what is left of its threshold in this period. -/
def DownCount.Agrees (d : DownCount) : Prop :=
  d.downA.toNat = d.st.thrA.toNat - d.st.cnt.toNat ∧ d.downB.toNat = d.st.thrB.toNat - d.st.cnt.toNat

end Sys2Proof.Machine
end

