-- ==== Sys2Proof/Machine/Trace.lean ====
section
/-! DEFINITION. The trace language of 30_encoding.md R81: its lines, their expansion into operations, the assembler, which
"emits the canonical encoding of rule R74", and the text form (log 12 says what R81 leaves open about it). Text is a
list of characters, so that Lean's kernel can read it. -/

namespace Sys2Proof.Machine

/-- One line: an operation or a pseudo-operation (R81's two tables). -/
inductive TraceLine where
  | reset
  | idle
  | tick
  | sample (x y z : Int)
  | tickSample (x y z : Int)
  | sampler (nd b0 b1 b2 b3 b4 b5 : Nat)
  | tickSampler (nd b0 b1 b2 b3 b4 b5 : Nat)
  /-- `TICKS n` -/
  | ticks (n : Nat)
  /-- `PERIODS n` -/
  | periods (n : Nat)
  /-- `SAMPLES n, x, y, z` -/
  | samples (n : Nat) (x y z : Int)
  /-- `SKIP` -/
  | skip
  /-- `IDLES n` -/
  | idles (n : Nat)
  deriving DecidableEq, Repr

/-- R81: a sample operand is in -32768..32767. -/
def sampleInRange (v : Int) : Bool := decide (-32768 ≤ v) && decide (v ≤ 32767)

/-- R81: `nd` is in 0..7 and each `b` in 0..255. -/
def burstInRange (nd b0 b1 b2 b3 b4 b5 : Nat) : Bool :=
  decide (nd < 8) && decide (b0 < 256) && decide (b1 < 256) && decide (b2 < 256) && decide (b3 < 256)
    && decide (b4 < 256) && decide (b5 < 256)

/-- The operand ranges of R81's table. For the pseudo-operations R81 gives none but `n ≥ 0` for `TICKS`. DESIGN CHOICE
(log 12): the sample operands of `SAMPLES` have the range of `SAMPLE` whatever `n` is, so `SAMPLES 0` with an operand
outside it is out of range, although its expansion has no line. -/
def TraceLine.inRange : TraceLine → Bool
  | .sample x y z => sampleInRange x && sampleInRange y && sampleInRange z
  | .tickSample x y z => sampleInRange x && sampleInRange y && sampleInRange z
  | .sampler nd b0 b1 b2 b3 b4 b5 => burstInRange nd b0 b1 b2 b3 b4 b5
  | .tickSampler nd b0 b1 b2 b3 b4 b5 => burstInRange nd b0 b1 b2 b3 b4 b5
  | .samples _ x y z => sampleInRange x && sampleInRange y && sampleInRange z
  | .reset => true
  | .idle => true
  | .tick => true
  | .ticks _ => true
  | .periods _ => true
  | .skip => true
  | .idles _ => true

/-- A signed operand as its 16-bit pattern. -/
def sampleOf (v : Int) : Sample := BitVec.ofInt 16 v

/-- A byte operand. -/
def byteOf (n : Nat) : Byte := BitVec.ofNat 8 n

/-- The operations a line stands for (R81's expansions). -/
def TraceLine.expand : TraceLine → List Instr
  | .reset => [.reset]
  | .idle => [.idle]
  | .tick => [.tick]
  | .sample x y z => [.sample (sampleOf x) (sampleOf y) (sampleOf z)]
  | .tickSample x y z => [.tickSample (sampleOf x) (sampleOf y) (sampleOf z)]
  | .sampler nd b0 b1 b2 b3 b4 b5 =>
    [.sampler (BitVec.ofNat 3 nd) (byteOf b0) (byteOf b1) (byteOf b2) (byteOf b3) (byteOf b4) (byteOf b5)]
  | .tickSampler nd b0 b1 b2 b3 b4 b5 =>
    [.tickSampler (BitVec.ofNat 3 nd) (byteOf b0) (byteOf b1) (byteOf b2) (byteOf b3) (byteOf b4) (byteOf b5)]
  | .ticks n => List.replicate n .tick
  | .periods n => List.replicate (n * Config.pwmSteps) .tick
  | .samples n x y z => List.replicate n (.sample (sampleOf x) (sampleOf y) (sampleOf z))
  | .skip => [.sampler 0 0 0 0 0 0 0]
  | .idles n => List.replicate n .idle

/-- The canonical words of a line; none when an operand is out of range. -/
def TraceLine.assemble (l : TraceLine) : Option (List Stimulus) :=
  if l.inRange then l.expand.mapM encode else none

/-- The words of a program. -/
def assembleProgram (ls : List TraceLine) : Option (List Stimulus) :=
  (ls.mapM TraceLine.assemble).map List.flatten

/-- What a disassembler shows for a word: its operation, with unexamined operand bits 0 so that assembling it gives the
canonical word, and the bits it does not examine when one of them is not 0
("prints an unexamined non-zero field as a comment", R81). -/
def disassemble (w : Stimulus) : Except DecodeError (Instr × Option Stimulus) :=
  match decode w with
  | .error e => .error e
  | .ok i =>
    let rest := w &&& ~~~i.examined
    .ok (i.canonical, if rest = 0 then none else some rest)

/-! Reading a line of text. -/

/-- Why a line of text is no trace line. -/
inductive TraceError where
  | unknownName
  | badNumber
  | wrongOperandCount
  | outOfRange
  deriving DecidableEq, Repr

/-- Space or tab. -/
def isBlank (c : Char) : Bool := c == ' ' || c == '\t'

/-- The text without blanks at either end. -/
def trimBlanks (cs : List Char) : List Char :=
  ((cs.dropWhile isBlank).reverse.dropWhile isBlank).reverse

/-- The text before the comment: "a `;` starts a comment". -/
def stripComment (cs : List Char) : List Char := cs.takeWhile (· != ';')

/-- The pieces between commas: "operands are separated by commas". -/
def splitCommas : List Char → List (List Char)
  | [] => [[]]
  | c :: cs =>
    if c = ',' then [] :: splitCommas cs
    else
      match splitCommas cs with
      | [] => [[c]]
      | p :: ps => (c :: p) :: ps

/-- The value of a digit, up to hexadecimal. -/
def digitValue (c : Char) : Option Nat :=
  if '0' ≤ c ∧ c ≤ '9' then some (c.toNat - 48)
  else if 'a' ≤ c ∧ c ≤ 'f' then some (c.toNat - 87)
  else if 'A' ≤ c ∧ c ≤ 'F' then some (c.toNat - 55)
  else none

/-- Digits in a base, most significant first, after the value read so far. -/
def digitsValue (base : Nat) : Nat → List Char → Option Nat
  | acc, [] => some acc
  | acc, c :: cs =>
    match digitValue c with
    | none => none
    | some d => if d < base then digitsValue base (acc * base + d) cs else none

/-- A number without sign: "decimal, or hexadecimal with `0x`". -/
def readNat : List Char → Option Nat
  | [] => none
  | '0' :: 'x' :: d :: ds => digitsValue 16 0 (d :: ds)
  | d :: ds => digitsValue 10 0 (d :: ds)

/-- A number with an optional minus sign. -/
def readInt : List Char → Option Int
  | '-' :: cs => (readNat cs).map fun n => -(n : Int)
  | cs => (readNat cs).map fun n => (n : Int)

/-- The operands after the name; no text is no operand. -/
def readOperands (cs : List Char) : Option (List Int) :=
  match trimBlanks cs with
  | [] => some []
  | t => (splitCommas t).mapM fun p => readInt (trimBlanks p)

/-- Refuses a line whose operands are out of R81's ranges. -/
def checkRange (l : TraceLine) : Except TraceError (Option TraceLine) :=
  if l.inRange then .ok (some l) else .error .outOfRange

/-- A burst line from its operands; a negative operand is out of range. -/
def burstLine (mk : Nat → Nat → Nat → Nat → Nat → Nat → Nat → TraceLine) (vs : List Int) :
    Except TraceError (Option TraceLine) :=
  match vs with
  | [nd, b0, b1, b2, b3, b4, b5] =>
    if vs.all (fun v => decide (0 ≤ v)) then
      checkRange (mk nd.toNat b0.toNat b1.toNat b2.toNat b3.toNat b4.toNat b5.toNat)
    else .error .outOfRange
  | _ => .error .wrongOperandCount

/-- A counted line from its operands: `n >= 0`, which R81 states for `TICKS` (for `PERIODS`, `SAMPLES` and `IDLES` DESIGN
CHOICE, log 12). -/
def countLine (mk : Nat → TraceLine) (vs : List Int) : Except TraceError (Option TraceLine) :=
  match vs with
  | [n] => if 0 ≤ n then checkRange (mk n.toNat) else .error .outOfRange
  | _ => .error .wrongOperandCount

/-- A line without operands. -/
def plainLine (l : TraceLine) (vs : List Int) : Except TraceError (Option TraceLine) :=
  match vs with
  | [] => .ok (some l)
  | _ => .error .wrongOperandCount

/-- A line of three sample operands. -/
def sampleLine (mk : Int → Int → Int → TraceLine) (vs : List Int) : Except TraceError (Option TraceLine) :=
  match vs with
  | [x, y, z] => checkRange (mk x y z)
  | _ => .error .wrongOperandCount

/-- `SAMPLES n, x, y, z`, with the ranges that log 12 chooses for it. -/
def samplesLine (vs : List Int) : Except TraceError (Option TraceLine) :=
  match vs with
  | [n, x, y, z] => if 0 ≤ n then checkRange (.samples n.toNat x y z) else .error .outOfRange
  | _ => .error .wrongOperandCount

/-- The line with the given name and operands (R81's two tables). -/
def namedLine (name : List Char) (vs : List Int) : Except TraceError (Option TraceLine) :=
  if name = ['R', 'E', 'S', 'E', 'T'] then plainLine .reset vs
  else if name = ['I', 'D', 'L', 'E'] then plainLine .idle vs
  else if name = ['T', 'I', 'C', 'K'] then plainLine .tick vs
  else if name = ['S', 'K', 'I', 'P'] then plainLine .skip vs
  else if name = ['S', 'A', 'M', 'P', 'L', 'E'] then sampleLine .sample vs
  else if name = ['T', 'I', 'C', 'K', '.', 'S', 'A', 'M', 'P', 'L', 'E'] then sampleLine .tickSample vs
  else if name = ['S', 'A', 'M', 'P', 'L', 'E', 'R'] then burstLine .sampler vs
  else if name = ['T', 'I', 'C', 'K', '.', 'S', 'A', 'M', 'P', 'L', 'E', 'R'] then burstLine .tickSampler vs
  else if name = ['T', 'I', 'C', 'K', 'S'] then countLine .ticks vs
  else if name = ['P', 'E', 'R', 'I', 'O', 'D', 'S'] then countLine .periods vs
  else if name = ['I', 'D', 'L', 'E', 'S'] then countLine .idles vs
  else if name = ['S', 'A', 'M', 'P', 'L', 'E', 'S'] then samplesLine vs
  else .error .unknownName

/-- The trace line of a text line, "one operation per line"; none for a line that holds only blanks or a comment. -/
def parseLine (text : List Char) : Except TraceError (Option TraceLine) :=
  match trimBlanks (stripComment text) with
  | [] => .ok none
  | cs =>
    match readOperands (cs.dropWhile fun c => !isBlank c) with
    | none => .error .badNumber
    | some vs => namedLine (cs.takeWhile fun c => !isBlank c) vs

end Sys2Proof.Machine
end

