-- ==== Sys2Proof/Machine/Observe.lean ====
section
/-! DEFINITION. What the block shows the world (45_system_ops.md R168): the LED lines and the read-only observer ports
(10_state.md R29). They are views of State; reading them changes nothing. -/

namespace Sys2Proof.Machine

/-- The registers at the observer ports (R29): not the ring slots, not the cursors (R21, R22). -/
structure Observation where
  smX : Sample
  smY : Sample
  smZ : Sample
  led : Leds
  vint : Intensity
  hint : Intensity
  cnt : Count
  thrA : Count
  thrB : Count
  out : Leds
  deriving DecidableEq, Repr

/-- The observer ports in a state. -/
def observe (s : State) : Observation :=
  { smX := s.x.sm, smY := s.y.sm, smZ := s.z.sm, led := s.led, vint := s.vint, hint := s.hint
    cnt := s.cnt, thrA := s.thrA, thrB := s.thrB, out := s.out }

/-- The five LED lines `led_o[4:0] = out` (R71, R153). -/
def ledLines (s : State) : BitVec 5 := s.out.toBits

end Sys2Proof.Machine
end

