-- ==== Sys2Proof/Safety.lean ====
section
/-! DEFINITION. What counts as a safe run, in the terms claims use: the invariants of reachable states (10_state.md R35),
the agreement of the ports with `out` (R28), and the words a run has consumed. -/

namespace Sys2Proof.Safety

open Sys2Proof.Machine

/-- R35 item 1: the three cursors are equal. -/
def Lockstep (s : State) : Prop := s.x.cur = s.y.cur ∧ s.y.cur = s.z.cur

/-- R35 item 2: `sm_a = tdiv(sum of the slots, 16)`. -/
def MeansCurrent (s : State) : Prop :=
  ∀ a : Axis, (s.lane a).sm.toInt = tdiv (ringSum s a) Config.nTaps

/-- R35 item 3: the intensities stay in -100..100. -/
def IntensitiesInRange (s : State) : Prop :=
  -100 ≤ s.vint.toInt ∧ s.vint.toInt ≤ 100 ∧ -100 ≤ s.hint.toInt ∧ s.hint.toInt ≤ 100

/-- R35 item 4: the counter stays in 0..99 and the thresholds in 0..100. -/
def CountsInRange (s : State) : Prop :=
  s.cnt.toNat ≤ 99 ∧ s.thrA.toNat ≤ 100 ∧ s.thrB.toNat ≤ 100

/-- R35 item 5: a directional LedState bit agrees with the sign of its intensity. -/
def LedFollowsSign (s : State) : Prop :=
  (s.led.up = true → s.vint.toInt < 0) ∧ (s.led.down = true → 0 < s.vint.toInt) ∧
  (s.led.right = true → 0 < s.hint.toInt) ∧ (s.led.left = true → s.hint.toInt < 0)

/-- R35 item 6: at most one LED of a pair is lit. -/
def PairsExclusive (s : State) : Prop :=
  ¬(s.out.up = true ∧ s.out.down = true) ∧ ¬(s.out.left = true ∧ s.out.right = true)

/-- R35 item 7: a directional LED is lit only before its threshold. -/
def LitBeforeThreshold (s : State) : Prop :=
  (s.out.up = true ∨ s.out.down = true → s.cnt.toNat < s.thrA.toNat) ∧
  (s.out.left = true ∨ s.out.right = true → s.cnt.toNat < s.thrB.toNat)

/-- R35, all seven items. -/
structure Invariant35 (s : State) : Prop where
  lockstep : Lockstep s
  means : MeansCurrent s
  intensities : IntensitiesInRange s
  counts : CountsInRange s
  ledSigns : LedFollowsSign s
  pairs : PairsExclusive s
  litBefore : LitBeforeThreshold s

/-- R134's duty law as a relation on one state: with `V`, `H` the intensities and `center` the center bit at the period
start, the thresholds are the magnitudes, each pair's LED chosen by the sign is lit while the counter is below its
magnitude, and the center LED is the bit taken then. -/
structure InPeriod (V H : Int) (center : Bool) (s : State) : Prop where
  counter : s.cnt.toNat ≤ 99
  thresholdA : s.thrA.toNat = V.natAbs
  thresholdB : s.thrB.toNat = H.natAbs
  litUp : s.out.up = decide (V < 0 ∧ s.cnt.toNat < V.natAbs)
  litDown : s.out.down = decide (0 < V ∧ s.cnt.toNat < V.natAbs)
  litLeft : s.out.left = decide (H < 0 ∧ s.cnt.toNat < H.natAbs)
  litRight : s.out.right = decide (0 < H ∧ s.cnt.toNat < H.natAbs)
  litCenter : s.out.center = center

/-- R28: `out` "is the value of the five LED lines, that is, the LED bits of the two output ports after the Port
Driver's last write". -/
def PortsShowOut (s : State) : Prop :=
  s.portA.getLsbD Config.ports.paCenter = lvl Config.ports s.out.center ∧
  s.portA.getLsbD Config.ports.paRight = lvl Config.ports s.out.right ∧
  s.portA.getLsbD Config.ports.paUp = lvl Config.ports s.out.up ∧
  s.portB.getLsbD Config.ports.pbDown = lvl Config.ports s.out.down ∧
  s.portB.getLsbD Config.ports.pbLeft = lvl Config.ports s.out.left

/-- A legal stimulus word: `ev[7] = 0` (R75 (a)). -/
def legal (w : Stimulus) : Bool := !w.getLsbD 55

/-- A word that gives RESET. -/
def givesReset (w : Stimulus) : Bool := legal w && w.getLsbD 50

/-- A word whose operation contains a TICK: `tick = 1`, `rst = 0`. -/
def givesTick (w : Stimulus) : Bool := legal w && !w.getLsbD 50 && w.getLsbD 49

/-- A word whose operation accepts a sample: `smp = 1`, `rst = 0`, and in the raw form all three new-data flags. -/
def givesSample (w : Stimulus) : Bool :=
  legal w && !w.getLsbD 50 && w.getLsbD 48 && (!w.getLsbD 51 || newDataAccepts (w.extractLsb' 52 3))

/-- The number of TICKs in a stretch of words. -/
def ticksIn (ws : List Stimulus) : Nat := ws.countP givesTick

/-- A stretch of words without RESET. -/
def noReset (ws : List Stimulus) : Bool := ws.all fun w => !givesReset w

/-- `n` steps, stopping at the first fault or refusal. -/
def runSteps : Nat → State → Host.Outcome State Fault Refusal
  | 0, s => .next s
  | n + 1, s =>
    match step s with
    | .next t => runSteps n t
    | .fault r => .fault r
    | .refused r => .refused r

/-- Instructions run one after another, stopping at the first fault or refusal. -/
def runInstrs : List Instr → State → Host.Outcome State Fault Refusal
  | [], s => .next s
  | i :: is, s =>
    match exec i s with
    | .next t => runInstrs is t
    | .fault r => .fault r
    | .refused r => .refused r

/-! What an operation leaves unchanged, by owner (60_exceptions.md R187). -/

/-- Every slot reads as before, and no cursor or mean changed: the pipeline agent's own state. -/
def LanesKept (s t : State) : Prop :=
  ∀ a : Axis, (∀ i : Slot, memRead t a i = memRead s a i) ∧ (t.lane a).cur = (s.lane a).cur ∧
    (t.lane a).sm = (s.lane a).sm

/-- `cnt`, `thrA`, `thrB`, `out`: the timer agent's own state. -/
def SchedulerKept (s t : State) : Prop :=
  t.cnt = s.cnt ∧ t.thrA = s.thrA ∧ t.thrB = s.thrB ∧ t.out = s.out

/-- `led`, `vint`, `hint`: the shared state. -/
def SharedKept (s t : State) : Prop :=
  t.led = s.led ∧ t.vint = s.vint ∧ t.hint = s.hint

/-- The ports are as they were, and no PORTMAP was applied. -/
def PortsKept (s t : State) : Prop :=
  t.portA = s.portA ∧ t.portB = s.portB ∧ t.portOps = s.portOps

/-- The ports were driven once, from the state's `out`, over the old values of that application; every bit that is no
LED position is as it was (R150, R152). -/
def PortsDriven (s t : State) : Prop :=
  PortsShowOut t ∧ t.portOps = s.portOps + 1 ∧
  (∀ p : Nat, p ≠ Config.ports.paCenter → p ≠ Config.ports.paRight → p ≠ Config.ports.paUp →
    t.portA.getLsbD p = (Config.portAOld s.portOps).getLsbD p) ∧
  (∀ p : Nat, p ≠ Config.ports.pbDown → p ≠ Config.ports.pbLeft →
    t.portB.getLsbD p = (Config.portBOld s.portOps).getLsbD p)

end Sys2Proof.Safety
end

