-- ==== Sys2Proof/Certificates/Slice0/Obligations.lean ====
section
/-! DEFINITION. The statements for the provers. Each docstring names the rule of spec/ that the statement formalises.
Where the model's own fields (`wires`, `stim`, `portOps`) stand in a statement, its docstring names the log entry. -/

open Sys2Proof Sys2Proof.Machine Sys2Proof.Safety

/-! Operations: RESET, IDLE, TICK and the events. -/

/-- R200, R36: RESET leaves every register at its reset value, in every slot and register of R20's table, and drives all
five LEDs off. -/
def Obligations.ResetGivesResetValues : Prop :=
  ∀ s : State, ∃ t : State, exec .reset s = .next t ∧
    (∀ a : Axis, (∀ i : Slot, memRead t a i = 0) ∧ (t.lane a).cur = 0 ∧ (t.lane a).sm = 0) ∧
    t.led.toBits = 0b00000 ∧ t.vint = 0 ∧ t.hint = 0 ∧ t.cnt = 0 ∧ t.thrA = 0 ∧ t.thrB = 0 ∧
    t.out.toBits = 0b00000 ∧ PortsDriven s t

/-- R161: IDLE leaves every register as it was. -/
def Obligations.IdleChangesNothing : Prop :=
  ∀ s : State, exec .idle s = .next s

/-- R130: TICK replaces `cnt` by `(cnt + 1) mod 100` and then runs exactly the events that are due: PWM.PERIOD at 0, else
PWM.CMPA when the new value equals `thrA` and then PWM.CMPB when it equals `thrB`. -/
def Obligations.TickRaisesTheDueEvents : Prop :=
  ∀ (s : State) (c : Count), c.toNat = (s.cnt.toNat + 1) % 100 →
    (c.toNat = 0 → exec .tick s = exec .pwmPeriod { s with cnt := c }) ∧
    (c.toNat ≠ 0 → c = s.thrA → c ≠ s.thrB → exec .tick s = exec .pwmCmpA { s with cnt := c }) ∧
    (c.toNat ≠ 0 → c ≠ s.thrA → c = s.thrB → exec .tick s = exec .pwmCmpB { s with cnt := c }) ∧
    (c.toNat ≠ 0 → c = s.thrA → c = s.thrB →
      ∃ u : State, exec .pwmCmpA { s with cnt := c } = .next u ∧ exec .tick s = exec .pwmCmpB u) ∧
    (c.toNat ≠ 0 → c ≠ s.thrA → c ≠ s.thrB → exec .tick s = .next { s with cnt := c })

/-- R26, R137: every TICK completes, with the counter advanced, and touches neither the lanes nor the intensities, nor
sets or clears `led.center`; between period starts it only turns LEDs off. -/
def Obligations.TickCompletesAndKeepsPipelineState : Prop :=
  ∀ s : State, ∃ t : State, exec .tick s = .next t ∧ t.cnt.toNat = (s.cnt.toNat + 1) % 100 ∧
    LanesKept s t ∧ t.vint = s.vint ∧ t.hint = s.hint ∧ t.led.center = s.led.center ∧
    (t.cnt.toNat ≠ 0 → t.thrA = s.thrA ∧ t.thrB = s.thrB ∧ t.out.center = s.out.center ∧
      (t.out.up = true → s.out.up = true) ∧ (t.out.down = true → s.out.down = true) ∧
      (t.out.left = true → s.out.left = true) ∧ (t.out.right = true → s.out.right = true))

/-- R131: the period start sets a directional bit by the sign of its intensity, loads the magnitudes as thresholds,
copies `led` to `out` and drives the ports; lanes, intensities and `cnt` are unchanged. For a magnitude that 7 bits
hold, the threshold is that magnitude (-128 is the one that does not fit: next statement). -/
def Obligations.PeriodStartLightsBySignAndLoadsThresholds : Prop :=
  ∀ s : State, ∃ t : State, exec .pwmPeriod s = .next t ∧
    t.led.down = (s.led.down || decide (0 < s.vint.toInt)) ∧
    t.led.up = (s.led.up || decide (s.vint.toInt < 0)) ∧
    t.led.right = (s.led.right || decide (0 < s.hint.toInt)) ∧
    t.led.left = (s.led.left || decide (s.hint.toInt < 0)) ∧
    t.led.center = s.led.center ∧
    (s.vint.toInt ≠ -128 → t.thrA.toNat = s.vint.toInt.natAbs) ∧
    (s.hint.toInt ≠ -128 → t.thrB.toNat = s.hint.toInt.natAbs) ∧
    t.out = t.led ∧ PortsDriven s t ∧ LanesKept s t ∧ t.vint = s.vint ∧ t.hint = s.hint ∧ t.cnt = s.cnt

/-- V4, the model's choice (log 8): an intensity of -128, which no run holds, loads a free threshold. Everything else is as
in every period start: the sets by sign, the copy to `out`, the ports, the other pair's threshold, and what is kept. -/
def Obligations.PeriodStartOnMinus128LoadsFreeThreshold : Prop :=
  ∀ s : State, s.vint.toInt = -128 ∨ s.hint.toInt = -128 → ∃ t : State, exec .pwmPeriod s = .next t ∧
    (s.vint.toInt = -128 → t.thrA = Config.thrUnstated s.vint) ∧
    (s.hint.toInt = -128 → t.thrB = Config.thrUnstated s.hint) ∧
    (s.vint.toInt ≠ -128 → t.thrA.toNat = s.vint.toInt.natAbs) ∧
    (s.hint.toInt ≠ -128 → t.thrB.toNat = s.hint.toInt.natAbs) ∧
    t.led.down = (s.led.down || decide (0 < s.vint.toInt)) ∧
    t.led.up = (s.led.up || decide (s.vint.toInt < 0)) ∧
    t.led.right = (s.led.right || decide (0 < s.hint.toInt)) ∧
    t.led.left = (s.led.left || decide (s.hint.toInt < 0)) ∧
    t.led.center = s.led.center ∧ t.out = t.led ∧ PortsDriven s t ∧
    LanesKept s t ∧ t.vint = s.vint ∧ t.hint = s.hint ∧ t.cnt = s.cnt

/-- R132: PWM.CMPA clears `up` and `down` in `led` and in `out`, drives the ports, and touches nothing else. -/
def Obligations.CompareAClearsTheVerticalPair : Prop :=
  ∀ s : State, ∃ t : State, exec .pwmCmpA s = .next t ∧
    t.led = { s.led with up := false, down := false } ∧ t.out = { s.out with up := false, down := false } ∧
    PortsDriven s t ∧ LanesKept s t ∧ t.vint = s.vint ∧ t.hint = s.hint ∧ t.cnt = s.cnt ∧
    t.thrA = s.thrA ∧ t.thrB = s.thrB

/-- R133: PWM.CMPB clears `left` and `right` in `led` and in `out`, drives the ports, and touches nothing else. -/
def Obligations.CompareBClearsTheHorizontalPair : Prop :=
  ∀ s : State, ∃ t : State, exec .pwmCmpB s = .next t ∧
    t.led = { s.led with left := false, right := false } ∧ t.out = { s.out with left := false, right := false } ∧
    PortsDriven s t ∧ LanesKept s t ∧ t.vint = s.vint ∧ t.hint = s.hint ∧ t.cnt = s.cnt ∧
    t.thrA = s.thrA ∧ t.thrB = s.thrB

/-- R130's corner cases, V3: a threshold of 0, or of 100 and more, raises no compare event before the next period start,
so its pair keeps its bits. -/
def Obligations.ThresholdsAtTheEndsRaiseNothing : Prop :=
  ∀ s t : State, exec .tick s = .next t → t.cnt.toNat ≠ 0 →
    ((s.thrA.toNat = 0 ∨ 100 ≤ s.thrA.toNat) →
      t.led.up = s.led.up ∧ t.led.down = s.led.down ∧ t.out.up = s.out.up ∧ t.out.down = s.out.down) ∧
    ((s.thrB.toNat = 0 ∨ 100 ≤ s.thrB.toNat) →
      t.led.left = s.led.left ∧ t.led.right = s.led.right ∧ t.out.left = s.out.left ∧ t.out.right = s.out.right)

/-! The Port Driver. -/

/-- R150, R152, for every allowed choice of the open parameters: the mapping puts each LED level at its position, keeps
every other bit of the old value, and is idempotent. -/
def Obligations.PortMappingKeepsForeignBits : Prop :=
  ∀ (p : PortParams) (out : Leds) (oldA oldB : BitVec p.portW), p.valid = true →
    (∀ q : Nat, (portAMap p out oldA).getLsbD q =
      if q = p.paUp then (out.up == p.ledOnLevel) else if q = p.paRight then (out.right == p.ledOnLevel)
      else if q = p.paCenter then (out.center == p.ledOnLevel) else oldA.getLsbD q) ∧
    (∀ q : Nat, (portBMap p out oldB).getLsbD q =
      if q = p.pbLeft then (out.left == p.ledOnLevel) else if q = p.pbDown then (out.down == p.ledOnLevel)
      else oldB.getLsbD q) ∧
    portAMap p out (portAMap p out oldA) = portAMap p out oldA ∧
    portBMap p out (portBMap p out oldB) = portBMap p out oldB

/-- R150, R152 for the instruction: PORTMAP puts the five LED levels of `out` at their positions over the environment's old
port values (free, log 4), hands every other bit back, and changes no register of the block. -/
def Obligations.PortMapDrivesOnlyTheLedBits : Prop :=
  ∀ s : State, ∃ t : State, exec .portMap s = .next t ∧ PortsDriven s t ∧ t.toRegs = s.toRegs

/-! SAMPLE and its parts. -/

/-- R162, with R100, R101, R111, R113, R114, R167. SAMPLE writes one slot of each axis, the one its cursor names, advances
that cursor modulo 16, leaves every other slot as it was, and registers the truncated mean of the 16 slots as they now
are. Then, with `x, y, z` the new means, `x'` and `y'` are the dominant-axis remap, the five LED bits become the strict
threshold tests on them, and the intensities `-x'` and `y'` clamped to -100..100. It writes none of `cnt`, `thrA`,
`thrB`, `out`, and no port. -/
def Obligations.SampleRunsTheWholePipeline : Prop :=
  ∀ (rx ry rz : Sample) (s : State), ∃ t : State, exec (.sample rx ry rz) s = .next t ∧
    memRead t .x (slotOf s.x.cur) = rx ∧ memRead t .y (slotOf s.y.cur) = ry ∧ memRead t .z (slotOf s.z.cur) = rz ∧
    (∀ a : Axis,
      (∀ i : Slot, i ≠ slotOf (s.lane a).cur → memRead t a i = memRead s a i) ∧
      (t.lane a).cur.toNat = ((s.lane a).cur.toNat + 1) % 16 ∧
      (t.lane a).sm.toInt = Int.tdiv (∑ i : Slot, (memRead t a i).toInt) 16) ∧
    (∃ x' y' : Int,
      (let x := t.x.sm.toInt
       let y := t.y.sm.toInt
       let z := t.z.sm.toInt
       ((|z| < |x| ∧ |y| < |x|) → x' = (if 0 < x then -z else z) ∧ y' = 0) ∧
       ((¬(|z| < |x| ∧ |y| < |x|) ∧ |x| < |y| ∧ |z| < |y|) → y' = (if 0 < y then -z else z) ∧ x' = 0) ∧
       ((¬(|z| < |x| ∧ |y| < |x|) ∧ ¬(|x| < |y| ∧ |z| < |y|)) → x' = x ∧ y' = y)) ∧
      (t.led.up = true ↔ x' > 10) ∧ (t.led.down = true ↔ x' < -10) ∧
      (t.led.right = true ↔ y' > 10) ∧ (t.led.left = true ↔ y' < -10) ∧
      (t.led.center = true ↔ ¬(x' > 10 ∨ x' < -10 ∨ y' > 10 ∨ y' < -10)) ∧
      t.vint.toInt = max (-100) (min 100 (-x')) ∧ t.hint.toInt = max (-100) (min 100 y')) ∧
    SchedulerKept s t ∧ PortsKept s t

/-- R24: right after a SAMPLE's COMMIT, "either center is set and all directional bits are clear, or exactly one vertical
bit (up/down) and/or one horizontal bit (left/right) is set while center is clear". -/
def Obligations.CommittedLedStateIsConsistent : Prop :=
  ∀ (rx ry rz : Sample) (s t : State), exec (.sample rx ry rz) s = .next t →
    (t.led.center = true ∧ t.led.up = false ∧ t.led.down = false ∧ t.led.left = false ∧ t.led.right = false) ∨
    (t.led.center = false ∧ (t.led.up || t.led.down || t.led.left || t.led.right) = true ∧
      (t.led.up && t.led.down) = false ∧ (t.led.left && t.led.right) = false)

/-- R163, R73, R90, R91: with all three flags set, SAMPLER is SAMPLE of the three values of the burst's 10-bit fields, each
`f` below 512 and `f - 1024` from there on; with any flag clear it is the skip cycle and changes nothing at all. -/
def Obligations.SamplerIsSampleOfTheFieldsOrSkip : Prop :=
  ∀ (nd : NdFlags) (b0 b1 b2 b3 b4 b5 : Byte) (s : State),
    (nd = 0b111 → ∃ (rx ry rz : Sample) (t : State),
      exec (.sampler nd b0 b1 b2 b3 b4 b5) s = .next t ∧ exec (.sample rx ry rz) s = .next t ∧
      (∀ (r : Sample) (hi lo : Byte), (r, hi, lo) ∈ [(rx, b0, b1), (ry, b2, b3), (rz, b4, b5)] →
        r.toInt = if hi.toNat * 4 + lo.toNat / 64 < 512 then ((hi.toNat * 4 + lo.toNat / 64 : Nat) : Int)
          else ((hi.toNat * 4 + lo.toNat / 64 : Nat) : Int) - 1024)) ∧
    (nd ≠ 0b111 → exec (.sampler nd b0 b1 b2 b3 b4 b5) s = .next s)

/-- R164, R57: TICK.SAMPLE is TICK and then SAMPLE, in one step. -/
def Obligations.TickSampleIsTickThenSample : Prop :=
  ∀ (rx ry rz : Sample) (s : State), ∃ t u : State, exec .tick s = .next t ∧
    exec (.sample rx ry rz) t = .next u ∧ exec (.tickSample rx ry rz) s = .next u

/-- R165: TICK.SAMPLER is TICK and then SAMPLER, in one step; with a flag clear it is a plain TICK. -/
def Obligations.TickSamplerIsTickThenSampler : Prop :=
  ∀ (nd : NdFlags) (b0 b1 b2 b3 b4 b5 : Byte) (s : State), ∃ t u : State, exec .tick s = .next t ∧
    exec (.sampler nd b0 b1 b2 b3 b4 b5) t = .next u ∧ exec (.tickSampler nd b0 b1 b2 b3 b4 b5) s = .next u ∧
    (nd ≠ 0b111 → u = t)

/-- R164: the period start inside a TICK.SAMPLE "uses the `vint`, `hint`, `led` from before this sample". -/
def Obligations.TickSamplePeriodUsesOldIntensities : Prop :=
  ∀ (rx ry rz : Sample) (s u : State), s.cnt.toNat = 99 → s.vint.toInt ≠ -128 → s.hint.toInt ≠ -128 →
    exec (.tickSample rx ry rz) s = .next u →
    u.cnt = 0 ∧ u.thrA.toNat = s.vint.toInt.natAbs ∧ u.thrB.toNat = s.hint.toInt.natAbs ∧
    u.out.center = s.led.center ∧
    u.out.up = (s.led.up || decide (s.vint.toInt < 0)) ∧ u.out.down = (s.led.down || decide (0 < s.vint.toInt)) ∧
    u.out.left = (s.led.left || decide (s.hint.toInt < 0)) ∧ u.out.right = (s.led.right || decide (0 < s.hint.toInt))

/-- R100: FILT.PUSH writes the slot the cursor named on entry, then advances the cursor modulo 16; every other slot,
every other cursor, every mean and every other register is as it was. -/
def Obligations.FiltPushWritesOneSlotAndAdvances : Prop :=
  ∀ (a : Axis) (r : Sample) (s : State), ∃ t : State, exec (.filtPush a r) s = .next t ∧
    memRead t a (slotOf (s.lane a).cur) = r ∧
    (t.lane a).cur.toNat = ((s.lane a).cur.toNat + 1) % 16 ∧
    (∀ (b : Axis) (i : Slot), ¬(b = a ∧ i = slotOf (s.lane a).cur) → memRead t b i = memRead s b i) ∧
    (∀ b : Axis, b ≠ a → (t.lane b).cur = (s.lane b).cur) ∧ (∀ b : Axis, (t.lane b).sm = (s.lane b).sm) ∧
    SharedKept s t ∧ SchedulerKept s t ∧ PortsKept s t

/-- R101, R13: FILT.MEAN registers the sum of all 16 slots divided by 16, truncated toward zero; the sum fits a signed
20-bit accumulator; nothing else changes. -/
def Obligations.FiltMeanIsTheTruncatedMean : Prop :=
  ∀ (a : Axis) (s : State), ∃ t : State, exec (.filtMean a) s = .next t ∧
    (t.lane a).sm.toInt = Int.tdiv (∑ i : Slot, (memRead s a i).toInt) 16 ∧
    (-524288 ≤ ∑ i : Slot, (memRead s a i).toInt) ∧ (∑ i : Slot, (memRead s a i).toInt ≤ 524272) ∧
    (∀ (b : Axis) (i : Slot), memRead t b i = memRead s b i) ∧ (∀ b : Axis, (t.lane b).cur = (s.lane b).cur) ∧
    (∀ b : Axis, b ≠ a → (t.lane b).sm = (s.lane b).sm) ∧ SharedKept s t ∧ SchedulerKept s t ∧ PortsKept s t

/-- R90, R91: UNPACK's and NEWDATA's results; neither writes a register or a port. That a result stands in `wires` is the
model's choice (log 6). -/
def Obligations.UnpackAndNewdataLeaveTheirResults : Prop :=
  (∀ (a : Axis) (b0 b1 : Byte) (s : State), ∃ t : State, exec (.unpack a b0 b1) s = .next t ∧
    (t.wires.raw a).toInt = (if b0.toNat < 128 then ((b0.toNat * 4 + b1.toNat / 64 : Nat) : Int)
      else ((b0.toNat * 4 + b1.toNat / 64 : Nat) : Int) - 1024) ∧
    (∀ b : Axis, b ≠ a → t.wires.raw b = s.wires.raw b) ∧ t.toRegs = s.toRegs ∧ PortsKept s t) ∧
  (∀ (nd : NdFlags) (s : State), ∃ t : State, exec (.newdata nd) s = .next t ∧
    (t.wires.accept = true ↔ nd.toNat = 7) ∧ t.toRegs = s.toRegs ∧ PortsKept s t)

/-- R110, R111: CLS.ABS's magnitudes and CLS.REMAP's `x'` and `y'`; neither writes a register or a port. That they stand
in `wires` is the model's choice (log 6). -/
def Obligations.AbsAndRemapLeaveTheirResults : Prop :=
  (∀ s : State, ∃ t : State, exec .clsAbs s = .next t ∧
    (t.wires.ax : Int) = |s.x.sm.toInt| ∧ (t.wires.ay : Int) = |s.y.sm.toInt| ∧ (t.wires.az : Int) = |s.z.sm.toInt| ∧
    t.wires.ax ≤ 32768 ∧ t.wires.ay ≤ 32768 ∧ t.wires.az ≤ 32768 ∧ t.toRegs = s.toRegs ∧ PortsKept s t) ∧
  (∀ s : State, ∃ t : State, exec .clsRemap s = .next t ∧
    ((s.wires.ax > s.wires.az ∧ s.wires.ax > s.wires.ay) →
      t.wires.remX = (if s.x.sm.toInt > 0 then -s.z.sm.toInt else s.z.sm.toInt) ∧ t.wires.remY = 0) ∧
    (s.wires.ay > s.wires.ax ∧ s.wires.ay > s.wires.az →
      t.wires.remY = (if s.y.sm.toInt > 0 then -s.z.sm.toInt else s.z.sm.toInt) ∧ t.wires.remX = 0) ∧
    ((s.wires.az ≥ s.wires.ax ∧ s.wires.az ≥ s.wires.ay) ∨ s.wires.ax = s.wires.ay →
      t.wires.remX = s.x.sm.toInt ∧ t.wires.remY = s.y.sm.toInt) ∧
    t.toRegs = s.toRegs ∧ PortsKept s t)

/-- R113, R114, R115: CLS.THRESH's candidate and CLS.INTENS's clamped intensities; neither writes a register or a port.
That they stand in `wires` is the model's choice (log 6). -/
def Obligations.ThreshAndIntensLeaveTheirResults : Prop :=
  (∀ s : State, ∃ t : State, exec .clsThresh s = .next t ∧
    (t.wires.cand.up = true ↔ 10 < s.wires.remX) ∧ (t.wires.cand.down = true ↔ s.wires.remX < -10) ∧
    (t.wires.cand.right = true ↔ 10 < s.wires.remY) ∧ (t.wires.cand.left = true ↔ s.wires.remY < -10) ∧
    (t.wires.cand.center = true ↔ |s.wires.remX| ≤ 10 ∧ |s.wires.remY| ≤ 10) ∧
    t.toRegs = s.toRegs ∧ PortsKept s t) ∧
  (∀ s : State, ∃ t : State, exec .clsIntens s = .next t ∧
    t.wires.candV.toInt = max (-100) (min 100 (-s.wires.remX)) ∧
    t.wires.candH.toInt = max (-100) (min 100 s.wires.remY) ∧ t.toRegs = s.toRegs ∧ PortsKept s t)

/-- R167: COMMIT publishes the candidate triple, all 21 bits at once, and touches nothing else. That the candidate stands
in `wires` is the model's choice (log 6). -/
def Obligations.CommitPublishesTheCandidate : Prop :=
  ∀ s : State, ∃ t : State, exec .commit s = .next t ∧
    t.led = s.wires.cand ∧ t.vint = s.wires.candV ∧ t.hint = s.wires.candH ∧
    LanesKept s t ∧ SchedulerKept s t ∧ PortsKept s t

/-- R162's pseudocode, R76: the sub-operations run one by one, in the order of the pseudocode, leave every register and
port as SAMPLE does. -/
def Obligations.SampleIsItsSubOperations : Prop :=
  ∀ (rx ry rz : Sample) (s : State), ∃ t u : State, exec (.sample rx ry rz) s = .next t ∧
    runInstrs [.filtPush .x rx, .filtPush .y ry, .filtPush .z rz, .filtMean .x, .filtMean .y, .filtMean .z,
      .clsAbs, .clsRemap, .clsThresh, .clsIntens, .commit] s = .next u ∧
    u.toRegs = t.toRegs ∧ PortsKept t u

/-! Encoding. -/

/-- R74: what each 56-bit word is, bit by bit (the reserved line is R75 (a)), and the canonical words: the rule's six, and
for every legal word its operation's canonical word is that word with "every unexamined bit" 0, where the mask is the one of
the word's line in the rule's table and, for a raw form, the operand bits that R75 (e) leaves out. -/
def Obligations.DecodeFollowsTheOperationMap : Prop :=
  (∀ w : Stimulus,
    (w.getLsbD 55 = true → decode w = .error .reservedEv7) ∧
    (w.getLsbD 55 = false → w.getLsbD 50 = true → decode w = .ok .reset) ∧
    (w.getLsbD 55 = false → w.getLsbD 50 = false → w.getLsbD 49 = false → w.getLsbD 48 = false → decode w = .ok .idle) ∧
    (w.getLsbD 55 = false → w.getLsbD 50 = false → w.getLsbD 49 = true → w.getLsbD 48 = false → decode w = .ok .tick) ∧
    (w.getLsbD 55 = false → w.getLsbD 50 = false → w.getLsbD 48 = true → w.getLsbD 51 = false →
      decode w = .ok (if w.getLsbD 49
        then .tickSample (w.extractLsb' 32 16) (w.extractLsb' 16 16) (w.extractLsb' 0 16)
        else .sample (w.extractLsb' 32 16) (w.extractLsb' 16 16) (w.extractLsb' 0 16))) ∧
    (w.getLsbD 55 = false → w.getLsbD 50 = false → w.getLsbD 48 = true → w.getLsbD 51 = true →
      decode w = .ok (if w.getLsbD 49
        then .tickSampler (w.extractLsb' 52 3) (w.extractLsb' 40 8) (w.extractLsb' 32 8) (w.extractLsb' 24 8)
          (w.extractLsb' 16 8) (w.extractLsb' 8 8) (w.extractLsb' 0 8)
        else .sampler (w.extractLsb' 52 3) (w.extractLsb' 40 8) (w.extractLsb' 32 8) (w.extractLsb' 24 8)
          (w.extractLsb' 16 8) (w.extractLsb' 8 8) (w.extractLsb' 0 8)))) ∧
  (encode .idle = some 0x00000000000000 ∧ encode .tick = some 0x02000000000000 ∧
    encode .reset = some 0x04000000000000 ∧ encode (.sample 15 0 250) = some 0x01000F000000FA ∧
    encode (.tickSample (-15) 0 250) = some 0x03FFF1000000FA ∧
    encode (.sampler 7 0x03 0xC0 0x00 0x00 0x3E 0x80) = some 0x7903C000003E80) ∧
  (∀ w : Stimulus, (encode .reset = some w ∨ encode .idle = some w ∨ encode .tick = some w) →
    w &&& 0x78FFFFFFFFFFFF = 0) ∧
  (∀ (rx ry rz : Sample) (w : Stimulus), (encode (.sample rx ry rz) = some w ∨ encode (.tickSample rx ry rz) = some w) →
    w &&& 0x70000000000000 = 0) ∧
  (∀ (nd : NdFlags) (b0 b1 b2 b3 b4 b5 : Byte) (w : Stimulus),
    (encode (.sampler nd b0 b1 b2 b3 b4 b5) = some w ∨ encode (.tickSampler nd b0 b1 b2 b3 b4 b5) = some w) →
    w &&& 0x00003F003F003F = 0) ∧
  (∀ (w : Stimulus) (i : Instr), decode w = .ok i → encode i = some (w &&&
    (if w.getLsbD 50 then 0x84000000000000 else if !w.getLsbD 48 then 0x87000000000000
      else if !w.getLsbD 51 then 0x8FFFFFFFFFFFFF else 0xFFFFC0FFC0FFC0)))

/-- R74, R75 (e): decode of encode is the instruction. The canonical word has every unexamined bit 0, so it carries every
operand bit but the low six of a raw form's B1, B3 and B5: an operation that has them 0 is what its word decodes to, and
every other one decodes to itself with them 0, which does the same in every state. Encoding a word's operation clears
exactly the unexamined bits of the word. A sub-operation or event has no word, and no word decodes to one (R76; that they
are instructions without a word is log 7). -/
def Obligations.DecodeOfEncodeIsTheInstruction : Prop :=
  (∀ i : Instr, i.wellFormed = true → i.canonical = i → ∃ w : Stimulus, encode i = some w ∧ decode w = .ok i) ∧
  (∀ i : Instr, i.wellFormed = true → ∃ w : Stimulus, encode i = some w ∧ decode w = .ok i.canonical ∧
    ∀ s : State, exec i.canonical s = exec i s) ∧
  (Instr.reset.canonical = .reset ∧ Instr.idle.canonical = .idle ∧ Instr.tick.canonical = .tick ∧
    (∀ rx ry rz : Sample, (Instr.sample rx ry rz).canonical = .sample rx ry rz) ∧
    (∀ rx ry rz : Sample, (Instr.tickSample rx ry rz).canonical = .tickSample rx ry rz) ∧
    (∀ (nd : NdFlags) (b0 b1 b2 b3 b4 b5 : Byte), (Instr.sampler nd b0 b1 b2 b3 b4 b5).canonical =
      .sampler nd b0 b1 b2 b3 b4 b5 ↔ b1 &&& 0x3F = 0 ∧ b3 &&& 0x3F = 0 ∧ b5 &&& 0x3F = 0) ∧
    (∀ (nd : NdFlags) (b0 b1 b2 b3 b4 b5 : Byte), (Instr.tickSampler nd b0 b1 b2 b3 b4 b5).canonical =
      .tickSampler nd b0 b1 b2 b3 b4 b5 ↔ b1 &&& 0x3F = 0 ∧ b3 &&& 0x3F = 0 ∧ b5 &&& 0x3F = 0)) ∧
  (∀ i : Instr, i.wellFormed = false → encode i = none) ∧
  (∀ (w : Stimulus) (i : Instr), decode w = .ok i → i.wellFormed = true ∧ encode i = some (w &&& i.examined))

/-- R75 (b) to (e), V2: two legal words that differ only in bits the first one's operation does not examine have the same
effect in every state. -/
def Obligations.UnexaminedBitsHaveNoEffect : Prop :=
  ∀ (w w' : Stimulus) (i : Instr), decode w = .ok i → (w ^^^ w') &&& i.examined = 0 →
    ∃ i' : Instr, decode w' = .ok i' ∧ ∀ s : State, exec i' s = exec i s

/-- Some words of 95_test_vectors.md section 2.6, as R74 names them. -/
def Obligations.SpecWordsDecodeAsWritten : Prop :=
  decode 0x70FFFFFFFFFFFF = .ok .idle ∧ decode 0x0A123456789ABC = .ok .tick ∧ decode 0x07000F000000FA = .ok .reset ∧
  decode 0x01FF10000C003C = .ok (.sample (-240) 12 60) ∧ decode 0x03FFF1000000FA = .ok (.tickSample (-15) 0 250) ∧
  decode 0x7903C000003E80 = .ok (.sampler 7 0x03 0xC0 0x00 0x00 0x3E 0x80) ∧
  decode 0x0B03C000003E80 = .ok (.tickSampler 0 0x03 0xC0 0x00 0x00 0x3E 0x80) ∧
  decode 0xFF000000000000 = .error .reservedEv7

/-- R81: an in-range trace line assembles to exactly the canonical words of the operations it expands to, one each, and so
each word decodes to its operation (with the operand bits 0 that R75 (e) leaves unexamined). The words are pinned: a line
`RESET`, `IDLE` or `TICK` is R74's word; `SAMPLE` and `TICK.SAMPLE` are the event byte and the three operands;
`SAMPLER` and `TICK.SAMPLER` are the flags, the event bits and the six bytes, the unexamined bits 0; and the
pseudo-operations `TICKS n`, `PERIODS n` (100 n TICKs), `SAMPLES n`, `SKIP`, `IDLES n` are those of the rule's expansions.
A line out of range has no words; that `SAMPLES 0` with an operand outside -32768..32767 is one is the model's choice
(log 12). -/
def Obligations.AssembledTraceLinesDecodeBack : Prop :=
  (∀ l : TraceLine, l.inRange = true →
    ∃ ws : List Stimulus, l.assemble = some ws ∧ ws.map some = l.expand.map encode ∧
      ws.map decode = l.expand.map fun i => .ok i.canonical) ∧
  (TraceLine.reset.assemble = some [0x04000000000000] ∧ TraceLine.idle.assemble = some [0x00000000000000] ∧
    TraceLine.tick.assemble = some [0x02000000000000]) ∧
  (∀ rx ry rz : Sample,
    (TraceLine.sample rx.toInt ry.toInt rz.toInt).assemble = some [(0x01#8 ++ rx ++ ry ++ rz : Stimulus)] ∧
    (TraceLine.tickSample rx.toInt ry.toInt rz.toInt).assemble = some [(0x03#8 ++ rx ++ ry ++ rz : Stimulus)]) ∧
  (∀ (nd : NdFlags) (b0 b1 b2 b3 b4 b5 : Byte),
    (TraceLine.sampler nd.toNat b0.toNat b1.toNat b2.toNat b3.toNat b4.toNat b5.toNat).assemble =
      some [(0#1 ++ nd ++ 0b1001#4 ++ b0 ++ (b1 &&& 0xC0) ++ b2 ++ (b3 &&& 0xC0) ++ b4 ++ (b5 &&& 0xC0) : Stimulus)] ∧
    (TraceLine.tickSampler nd.toNat b0.toNat b1.toNat b2.toNat b3.toNat b4.toNat b5.toNat).assemble =
      some [(0#1 ++ nd ++ 0b1011#4 ++ b0 ++ (b1 &&& 0xC0) ++ b2 ++ (b3 &&& 0xC0) ++ b4 ++ (b5 &&& 0xC0) : Stimulus)]) ∧
  (∀ n : Nat, (TraceLine.ticks n).assemble = some (List.replicate n 0x02000000000000) ∧
    (TraceLine.periods n).assemble = some (List.replicate (100 * n) 0x02000000000000) ∧
    (TraceLine.idles n).assemble = some (List.replicate n 0x00000000000000)) ∧
  TraceLine.skip.assemble = some [0x09000000000000] ∧
  (∀ (n : Nat) (rx ry rz : Sample), (TraceLine.samples n rx.toInt ry.toInt rz.toInt).assemble =
    some (List.replicate n (0x01#8 ++ rx ++ ry ++ rz : Stimulus))) ∧
  (∀ (n : Nat) (x y z : Int), (TraceLine.sample x y z).inRange = true → ∃ w : Stimulus,
    (TraceLine.sample x y z).assemble = some [w] ∧ (TraceLine.samples n x y z).assemble = some (List.replicate n w)) ∧
  (∀ l : TraceLine, l.inRange = false → l.assemble = none)

/-! The step. -/

/-- A step consumes the next word and runs the instruction it decodes to (R70, R160); that pending words stand in `stim`
is the model's choice (log 1). With no word pending a step changes nothing, as an IDLE: that is the model's choice too
(log 2). -/
def Obligations.StepRunsTheDecodedWord : Prop :=
  (∀ (s : State) (w : Stimulus) (rest : List Stimulus) (i : Instr), s.stim = w :: rest → decode w = .ok i →
    step s = exec i { s with stim := rest }) ∧
  (∀ s : State, s.stim = [] → step s = .next s)

/-- R75 (a): a word with `ev[7] = 1` is refused by name, whatever its other bits are. -/
def Obligations.StepRefusesReservedWords : Prop :=
  ∀ (s : State) (w : Stimulus) (rest : List Stimulus), s.stim = w :: rest → w.getLsbD 55 = true →
    step s = .refused .reservedStimulus

/-- R160, R57: the step function, line by line: RESET excludes the rest, a tick comes before a sample, and every legal
word has a next state. -/
def Obligations.StepFollowsThePseudocode : Prop :=
  ∀ (s : State) (w : Stimulus) (rest : List Stimulus), s.stim = w :: rest → w.getLsbD 55 = false →
    (w.getLsbD 50 = true → step s = exec .reset { s with stim := rest }) ∧
    (w.getLsbD 50 = false → ∃ u : State,
      (w.getLsbD 49 = true → exec .tick { s with stim := rest } = .next u) ∧
      (w.getLsbD 49 = false → u = { s with stim := rest }) ∧
      (w.getLsbD 48 = false → step s = .next u) ∧
      (w.getLsbD 48 = true → w.getLsbD 51 = false →
        step s = exec (.sample (w.extractLsb' 32 16) (w.extractLsb' 16 16) (w.extractLsb' 0 16)) u) ∧
      (w.getLsbD 48 = true → w.getLsbD 51 = true →
        step s = exec (.sampler (w.extractLsb' 52 3) (w.extractLsb' 40 8) (w.extractLsb' 32 8) (w.extractLsb' 24 8)
          (w.extractLsb' 16 8) (w.extractLsb' 8 8) (w.extractLsb' 0 8)) u)) ∧
    ∃ t : State, step s = .next t

/-- R180: every operation is total, so every instruction and every legal word has a next state; no step faults. -/
def Obligations.EveryOperationIsTotal : Prop :=
  (∀ (i : Instr) (s : State), ∃ t : State, exec i s = .next t) ∧
  (∀ (s : State) (w : Stimulus) (rest : List Stimulus), s.stim = w :: rest → w.getLsbD 55 = false →
    ∃ t : State, step s = .next t) ∧
  (∀ (s : State) (r : Fault), step s ≠ .fault r)

/-- R34: "the stimulus stream is an input, not state": no instruction adds, drops or reads pending words, RESET included.
That the stream survives RESET is the model's choice (log 3). -/
def Obligations.InstructionsLeaveTheStreamAlone : Prop :=
  ∀ (i : Instr) (s : State) (ws : List Stimulus), ∃ t : State,
    exec i s = .next t ∧ exec i { s with stim := ws } = .next { t with stim := ws } ∧ t.stim = s.stim

/-- R28: only RESET and the events of a TICK write `out`; a step whose word has neither leaves `out` and the ports. -/
def Obligations.OnlyTickAndResetReachTheOutputs : Prop :=
  ∀ s t : State, step s = .next t → givesReset (takeWord s).1 = false → givesTick (takeWord s).1 = false →
    SchedulerKept s t ∧ PortsKept s t

/-- R21, R91: only an accepted sample and RESET reach the lanes: after any other step every slot, cursor and mean, and
both intensities, are as they were. -/
def Obligations.OnlyAcceptedSamplesReachTheLanes : Prop :=
  ∀ s t : State, step s = .next t → givesReset (takeWord s).1 = false → givesSample (takeWord s).1 = false →
    LanesKept s t ∧ t.vint = s.vint ∧ t.hint = s.hint

/-! Invariants. -/

/-- R35, R36: the seven invariants hold after reset, and the ports show `out`. That the wires are idle at reset is the
model's choice (log 6). -/
def Obligations.ResetMeetsTheInvariants : Prop :=
  Invariant35 State.reset ∧ PortsShowOut State.reset ∧ State.reset.wires = Wires.idle

/-- R35: every step from a state with the seven invariants leads to one with them. -/
def Obligations.StepKeepsTheInvariants : Prop :=
  ∀ s t : State, Invariant35 s → step s = .next t → Invariant35 t

/-- R28: the LED bits of the ports are the levels of `out` after every step from a state where they are. -/
def Obligations.StepKeepsPortsShowingOut : Prop :=
  ∀ s t : State, PortsShowOut s → step s = .next t → PortsShowOut t

/-- R34, the model's choice (log 6): between two steps no value of an operation remains. -/
def Obligations.StepLeavesNoValueInsideAnOperation : Prop :=
  ∀ s t : State, s.wires = Wires.idle → step s = .next t → t.wires = Wires.idle

/-! Laws of the filter. -/

/-- R104: after 16 consecutive samples of the same values, the means are those values, whatever the state before. -/
def Obligations.ConstantInputIsItsOwnMean : Prop :=
  ∀ (vx vy vz : Sample) (s : State), ∃ t : State,
    runInstrs (List.replicate 16 (.sample vx vy vz)) s = .next t ∧ t.x.sm = vx ∧ t.y.sm = vy ∧ t.z.sm = vz

/-- R103: the first `k <= 16` samples after RESET have the mean `tdiv(s_1 + ... + s_k, 16)`, on every axis. -/
def Obligations.StartupMeanIsBiasedTowardZero : Prop :=
  ∀ l : List (Sample × Sample × Sample), l.length ≤ 16 → ∃ t : State,
    runInstrs (l.map fun r => .sample r.1 r.2.1 r.2.2) State.reset = .next t ∧
    t.x.sm.toInt = Int.tdiv (l.map fun r => r.1.toInt).sum 16 ∧
    t.y.sm.toInt = Int.tdiv (l.map fun r => r.2.1.toInt).sum 16 ∧
    t.z.sm.toInt = Int.tdiv (l.map fun r => r.2.2.toInt).sum 16

/-- R106: a mean depends "only on the multiset of the 16 slot values, not on their order or on the cursor". -/
def Obligations.MeanDependsOnTheMultisetOnly : Prop :=
  ∀ (a : Axis) (s s' : State) (p : Equiv.Perm Slot), (∀ i : Slot, memRead s' a i = memRead s a (p i)) →
    ∃ t t' : State, exec (.filtMean a) s = .next t ∧ exec (.filtMean a) s' = .next t' ∧
      (t'.lane a).sm = (t.lane a).sm

/-- R93: values that enter through UNPACK keep every slot, sum and mean in the sensor's range, as long as every accepted
sample is of the raw form. -/
def Obligations.RawBurstsKeepTheSensorRange : Prop :=
  ∀ s t : State, (∀ (a : Axis) (i : Slot), -512 ≤ (memRead s a i).toInt ∧ (memRead s a i).toInt ≤ 511) →
    MeansCurrent s → step s = .next t → (givesSample (takeWord s).1 = true → (takeWord s).1.getLsbD 51 = true) →
    ∀ a : Axis, (∀ i : Slot, -512 ≤ (memRead t a i).toInt ∧ (memRead t a i).toInt ≤ 511) ∧
      -8192 ≤ ringSum t a ∧ ringSum t a ≤ 8176 ∧ -512 ≤ (t.lane a).sm.toInt ∧ (t.lane a).sm.toInt ≤ 511

/-- R22: the cursor is not observable: "from an all-zero buffer the sequence of means is the same for every starting
cursor". -/
def Obligations.StartingCursorIsUnobservable : Prop :=
  ∀ (l : List (Sample × Sample × Sample)) (s s' t t' : State),
    (∀ (a : Axis) (i : Slot), memRead s a i = 0 ∧ memRead s' a i = 0) →
    (∀ a : Axis, (s.lane a).sm = (s'.lane a).sm) →
    runInstrs (l.map fun r => .sample r.1 r.2.1 r.2.2) s = .next t →
    runInstrs (l.map fun r => .sample r.1 r.2.1 r.2.2) s' = .next t' →
    ∀ a : Axis, (t.lane a).sm = (t'.lane a).sm

/-- R102: the lanes share nothing: after a SAMPLE, the lane of an axis is decided by that lane and that raw value. -/
def Obligations.LanesShareNothing : Prop :=
  ∀ (rx ry rz qx qy qz : Sample) (s s' t t' : State),
    exec (.sample rx ry rz) s = .next t → exec (.sample qx qy qz) s' = .next t' →
    (s.x = s'.x → rx = qx → t.x = t'.x) ∧ (s.y = s'.y → ry = qy → t.y = t'.y) ∧ (s.z = s'.z → rz = qz → t.z = t'.z)

/-- R105: the cached sum, updated before the slot is overwritten, is the sum of the slots after FILT.PUSH, and gives the
mean that FILT.MEAN registers; after RESET it is 0. -/
def Obligations.CachedSumGivesTheSameMean : Prop :=
  (∀ (a : Axis) (r : Sample) (s : State) (acc : Int), AccIs s a acc → ∃ t u : State,
    exec (.filtPush a r) s = .next t ∧ AccIs t a (accAfterPush s a r acc) ∧
    exec (.filtMean a) t = .next u ∧ (u.lane a).sm = meanOfAcc (accAfterPush s a r acc)) ∧
  (∀ (a : Axis) (s t : State), exec .reset s = .next t → AccIs t a 0)

/-! Laws of the scheduler. -/

/-- R134, the duty law, for every interleaving with samples: number the TICKs of a period from its start. As long as no
RESET and fewer than 100 TICKs have come, the vertical LED chosen by the sign of `vint` at the period start is lit
exactly in the steps before `|vint|`, the horizontal one exactly in those before `|hint|`, the others are dark, and the
center LED is what `led.center` was at the period start. -/
def Obligations.DutyIsTheMagnitudeOfTheIntensity : Prop :=
  ∀ (s s1 t : State) (n k : Nat), Invariant35 s → s.cnt.toNat = 99 → exec .tick s = .next s1 →
    runSteps n s1 = .next t → noReset (s1.stim.take n) = true → ticksIn (s1.stim.take n) = k → k ≤ 99 →
    t.cnt.toNat = k ∧
    t.out.up = decide (s.vint.toInt < 0 ∧ k < s.vint.toInt.natAbs) ∧
    t.out.down = decide (0 < s.vint.toInt ∧ k < s.vint.toInt.natAbs) ∧
    t.out.left = decide (s.hint.toInt < 0 ∧ k < s.hint.toInt.natAbs) ∧
    t.out.right = decide (0 < s.hint.toInt ∧ k < s.hint.toInt.natAbs) ∧
    t.out.center = s.led.center

/-- R134, R201, one step at a time: RESET establishes the period relation for zero intensities, a TICK that starts a period
establishes it for the intensities and the center bit held before that step, and every other step keeps it, whatever
samples it accepts. -/
def Obligations.PeriodRelationIsEstablishedAndKept : Prop :=
  (∀ s t : State, step s = .next t → givesReset (takeWord s).1 = true → InPeriod 0 0 false t) ∧
  (∀ s t : State, Invariant35 s → s.cnt.toNat = 99 → step s = .next t → givesTick (takeWord s).1 = true →
    InPeriod s.vint.toInt s.hint.toInt s.led.center t) ∧
  (∀ (V H : Int) (center : Bool) (s t : State), InPeriod V H center s → step s = .next t →
    givesReset (takeWord s).1 = false → ¬(givesTick (takeWord s).1 = true ∧ s.cnt.toNat = 99) → InPeriod V H center t)

/-- R201: the first period after RESET is dark whatever samples come in it. -/
def Obligations.FirstPeriodAfterResetIsDark : Prop :=
  ∀ (s t : State) (n : Nat) (ws : List Stimulus), s = { State.reset with stim := ws } → runSteps n s = .next t →
    ticksIn (ws.take n) < 100 → t.out.toBits = 0b00000

/-- R202: if the sensor never reports new data, "the block then stays in its reset state apart from `cnt`". -/
def Obligations.WithoutSamplesOnlyTheCounterMoves : Prop :=
  ∀ (s t : State) (n : Nat) (ws : List Stimulus), s = { State.reset with stim := ws } → runSteps n s = .next t →
    (∀ w ∈ ws.take n, givesSample w = false) → t.toRegs = { Regs.reset with cnt := t.cnt }

/-- R137: the scheduler never reads the ring buffers or the means: two states that agree on its own registers and on the
shared ones agree on them after a TICK. -/
def Obligations.TickIsBlindToTheLanes : Prop :=
  ∀ s s' : State, SharedKept s s' → SchedulerKept s s' → ∃ t t' : State,
    exec .tick s = .next t ∧ exec .tick s' = .next t' ∧ SharedKept t t' ∧ SchedulerKept t t'

/-- R136: the down-counting form raises the same events: a TICK of it leaves the state TICK leaves, and its counters agree
with the registers again. -/
def Obligations.DownCountingFormIsEquivalent : Prop :=
  ∀ d : DownCount, d.Agrees → CountsInRange d.st → IntensitiesInRange d.st →
    exec .tick d.st = .next (downTick d).st ∧ (downTick d).Agrees
end

