-- ==== Sys2Proof/Laws/State.lean ====
section
/-! SUPPORT. One lemma per field per update, each true by computation, so that later proofs never unfold an update. -/

namespace Sys2Proof.Machine

/-! The lanes. -/

@[simp] theorem lane_x (s : State) : s.lane .x = s.x := rfl

@[simp] theorem lane_y (s : State) : s.lane .y = s.y := rfl

@[simp] theorem lane_z (s : State) : s.lane .z = s.z := rfl

@[simp] theorem setLane_lane_self (s : State) (a : Axis) (l : Lane) : (s.setLane a l).lane a = l := by
  cases a <;> rfl

theorem setLane_lane_of_ne (s : State) (l : Lane) {a b : Axis} (h : b ≠ a) : (s.setLane a l).lane b = s.lane b := by
  cases a <;> cases b <;> first | rfl | exact absurd rfl h

theorem setLane_x (s : State) (l : Lane) : s.setLane .x l = { s with x := l } := rfl

theorem setLane_y (s : State) (l : Lane) : s.setLane .y l = { s with y := l } := rfl

theorem setLane_z (s : State) (l : Lane) : s.setLane .z l = { s with z := l } := rfl

@[simp] theorem setLane_led (s : State) (a : Axis) (l : Lane) : (s.setLane a l).led = s.led := by cases a <;> rfl

@[simp] theorem setLane_vint (s : State) (a : Axis) (l : Lane) : (s.setLane a l).vint = s.vint := by cases a <;> rfl

@[simp] theorem setLane_hint (s : State) (a : Axis) (l : Lane) : (s.setLane a l).hint = s.hint := by cases a <;> rfl

@[simp] theorem setLane_cnt (s : State) (a : Axis) (l : Lane) : (s.setLane a l).cnt = s.cnt := by cases a <;> rfl

@[simp] theorem setLane_thrA (s : State) (a : Axis) (l : Lane) : (s.setLane a l).thrA = s.thrA := by cases a <;> rfl

@[simp] theorem setLane_thrB (s : State) (a : Axis) (l : Lane) : (s.setLane a l).thrB = s.thrB := by cases a <;> rfl

@[simp] theorem setLane_out (s : State) (a : Axis) (l : Lane) : (s.setLane a l).out = s.out := by cases a <;> rfl

@[simp] theorem setLane_portA (s : State) (a : Axis) (l : Lane) : (s.setLane a l).portA = s.portA := by cases a <;> rfl

@[simp] theorem setLane_portB (s : State) (a : Axis) (l : Lane) : (s.setLane a l).portB = s.portB := by cases a <;> rfl

@[simp] theorem setLane_portOps (s : State) (a : Axis) (l : Lane) : (s.setLane a l).portOps = s.portOps := by cases a <;> rfl

@[simp] theorem setLane_wires (s : State) (a : Axis) (l : Lane) : (s.setLane a l).wires = s.wires := by cases a <;> rfl

@[simp] theorem setLane_stim (s : State) (a : Axis) (l : Lane) : (s.setLane a l).stim = s.stim := by cases a <;> rfl

/-! One slot of the ring. -/

@[simp] theorem memWrite_led (s : State) (a : Axis) (i : Slot) (v : Sample) : (memWrite s a i v).led = s.led := by cases a <;> rfl

@[simp] theorem memWrite_vint (s : State) (a : Axis) (i : Slot) (v : Sample) : (memWrite s a i v).vint = s.vint := by cases a <;> rfl

@[simp] theorem memWrite_hint (s : State) (a : Axis) (i : Slot) (v : Sample) : (memWrite s a i v).hint = s.hint := by cases a <;> rfl

@[simp] theorem memWrite_cnt (s : State) (a : Axis) (i : Slot) (v : Sample) : (memWrite s a i v).cnt = s.cnt := by cases a <;> rfl

@[simp] theorem memWrite_thrA (s : State) (a : Axis) (i : Slot) (v : Sample) : (memWrite s a i v).thrA = s.thrA := by cases a <;> rfl

@[simp] theorem memWrite_thrB (s : State) (a : Axis) (i : Slot) (v : Sample) : (memWrite s a i v).thrB = s.thrB := by cases a <;> rfl

@[simp] theorem memWrite_out (s : State) (a : Axis) (i : Slot) (v : Sample) : (memWrite s a i v).out = s.out := by cases a <;> rfl

@[simp] theorem memWrite_portA (s : State) (a : Axis) (i : Slot) (v : Sample) :
    (memWrite s a i v).portA = s.portA := by cases a <;> rfl

@[simp] theorem memWrite_portB (s : State) (a : Axis) (i : Slot) (v : Sample) :
    (memWrite s a i v).portB = s.portB := by cases a <;> rfl

@[simp] theorem memWrite_portOps (s : State) (a : Axis) (i : Slot) (v : Sample) :
    (memWrite s a i v).portOps = s.portOps := by cases a <;> rfl

@[simp] theorem memWrite_wires (s : State) (a : Axis) (i : Slot) (v : Sample) :
    (memWrite s a i v).wires = s.wires := by cases a <;> rfl

@[simp] theorem memWrite_stim (s : State) (a : Axis) (i : Slot) (v : Sample) : (memWrite s a i v).stim = s.stim := by cases a <;> rfl

@[simp] theorem memWrite_cur (s : State) (a b : Axis) (i : Slot) (v : Sample) :
    ((memWrite s a i v).lane b).cur = (s.lane b).cur := by cases a <;> cases b <;> rfl

@[simp] theorem memWrite_sm (s : State) (a b : Axis) (i : Slot) (v : Sample) :
    ((memWrite s a i v).lane b).sm = (s.lane b).sm := by cases a <;> cases b <;> rfl

/-! The end of an operation, and the ports. -/

@[simp] theorem dropWires_x (s : State) : (dropWires s).x = s.x := rfl

@[simp] theorem dropWires_y (s : State) : (dropWires s).y = s.y := rfl

@[simp] theorem dropWires_z (s : State) : (dropWires s).z = s.z := rfl

@[simp] theorem dropWires_led (s : State) : (dropWires s).led = s.led := rfl

@[simp] theorem dropWires_vint (s : State) : (dropWires s).vint = s.vint := rfl

@[simp] theorem dropWires_hint (s : State) : (dropWires s).hint = s.hint := rfl

@[simp] theorem dropWires_cnt (s : State) : (dropWires s).cnt = s.cnt := rfl

@[simp] theorem dropWires_thrA (s : State) : (dropWires s).thrA = s.thrA := rfl

@[simp] theorem dropWires_thrB (s : State) : (dropWires s).thrB = s.thrB := rfl

@[simp] theorem dropWires_out (s : State) : (dropWires s).out = s.out := rfl

@[simp] theorem dropWires_portA (s : State) : (dropWires s).portA = s.portA := rfl

@[simp] theorem dropWires_portB (s : State) : (dropWires s).portB = s.portB := rfl

@[simp] theorem dropWires_portOps (s : State) : (dropWires s).portOps = s.portOps := rfl

@[simp] theorem dropWires_stim (s : State) : (dropWires s).stim = s.stim := rfl

@[simp] theorem dropWires_wires (s : State) : (dropWires s).wires = Wires.idle := rfl

@[simp] theorem dropWires_lane (s : State) (a : Axis) : (dropWires s).lane a = s.lane a := by cases a <;> rfl

@[simp] theorem drivePorts_toRegs (s : State) : (drivePorts s).toRegs = s.toRegs := rfl

@[simp] theorem drivePorts_x (s : State) : (drivePorts s).x = s.x := rfl

@[simp] theorem drivePorts_y (s : State) : (drivePorts s).y = s.y := rfl

@[simp] theorem drivePorts_z (s : State) : (drivePorts s).z = s.z := rfl

@[simp] theorem drivePorts_led (s : State) : (drivePorts s).led = s.led := rfl

@[simp] theorem drivePorts_vint (s : State) : (drivePorts s).vint = s.vint := rfl

@[simp] theorem drivePorts_hint (s : State) : (drivePorts s).hint = s.hint := rfl

@[simp] theorem drivePorts_cnt (s : State) : (drivePorts s).cnt = s.cnt := rfl

@[simp] theorem drivePorts_thrA (s : State) : (drivePorts s).thrA = s.thrA := rfl

@[simp] theorem drivePorts_thrB (s : State) : (drivePorts s).thrB = s.thrB := rfl

@[simp] theorem drivePorts_out (s : State) : (drivePorts s).out = s.out := rfl

@[simp] theorem drivePorts_wires (s : State) : (drivePorts s).wires = s.wires := rfl

@[simp] theorem drivePorts_stim (s : State) : (drivePorts s).stim = s.stim := rfl

@[simp] theorem drivePorts_portOps (s : State) : (drivePorts s).portOps = s.portOps + 1 := rfl

@[simp] theorem drivePorts_portA (s : State) :
    (drivePorts s).portA = portAMap Config.ports s.out (Config.portAOld s.portOps) := rfl

@[simp] theorem drivePorts_portB (s : State) :
    (drivePorts s).portB = portBMap Config.ports s.out (Config.portBOld s.portOps) := rfl

@[simp] theorem drivePorts_lane (s : State) (a : Axis) : (drivePorts s).lane a = s.lane a := by cases a <;> rfl

/-! The sensor front end. -/

@[simp] theorem unpackOp_toRegs (a : Axis) (b0 b1 : Byte) (s : State) : (unpackOp a b0 b1 s).toRegs = s.toRegs := rfl

@[simp] theorem newdataOp_toRegs (nd : NdFlags) (s : State) : (newdataOp nd s).toRegs = s.toRegs := rfl

@[simp] theorem unpackOp_x (a : Axis) (b0 b1 : Byte) (s : State) : (unpackOp a b0 b1 s).x = s.x := rfl

@[simp] theorem newdataOp_x (nd : NdFlags) (s : State) : (newdataOp nd s).x = s.x := rfl

@[simp] theorem unpackOp_y (a : Axis) (b0 b1 : Byte) (s : State) : (unpackOp a b0 b1 s).y = s.y := rfl

@[simp] theorem newdataOp_y (nd : NdFlags) (s : State) : (newdataOp nd s).y = s.y := rfl

@[simp] theorem unpackOp_z (a : Axis) (b0 b1 : Byte) (s : State) : (unpackOp a b0 b1 s).z = s.z := rfl

@[simp] theorem newdataOp_z (nd : NdFlags) (s : State) : (newdataOp nd s).z = s.z := rfl

@[simp] theorem unpackOp_led (a : Axis) (b0 b1 : Byte) (s : State) : (unpackOp a b0 b1 s).led = s.led := rfl

@[simp] theorem newdataOp_led (nd : NdFlags) (s : State) : (newdataOp nd s).led = s.led := rfl

@[simp] theorem unpackOp_vint (a : Axis) (b0 b1 : Byte) (s : State) : (unpackOp a b0 b1 s).vint = s.vint := rfl

@[simp] theorem newdataOp_vint (nd : NdFlags) (s : State) : (newdataOp nd s).vint = s.vint := rfl

@[simp] theorem unpackOp_hint (a : Axis) (b0 b1 : Byte) (s : State) : (unpackOp a b0 b1 s).hint = s.hint := rfl

@[simp] theorem newdataOp_hint (nd : NdFlags) (s : State) : (newdataOp nd s).hint = s.hint := rfl

@[simp] theorem unpackOp_cnt (a : Axis) (b0 b1 : Byte) (s : State) : (unpackOp a b0 b1 s).cnt = s.cnt := rfl

@[simp] theorem newdataOp_cnt (nd : NdFlags) (s : State) : (newdataOp nd s).cnt = s.cnt := rfl

@[simp] theorem unpackOp_thrA (a : Axis) (b0 b1 : Byte) (s : State) : (unpackOp a b0 b1 s).thrA = s.thrA := rfl

@[simp] theorem newdataOp_thrA (nd : NdFlags) (s : State) : (newdataOp nd s).thrA = s.thrA := rfl

@[simp] theorem unpackOp_thrB (a : Axis) (b0 b1 : Byte) (s : State) : (unpackOp a b0 b1 s).thrB = s.thrB := rfl

@[simp] theorem newdataOp_thrB (nd : NdFlags) (s : State) : (newdataOp nd s).thrB = s.thrB := rfl

@[simp] theorem unpackOp_out (a : Axis) (b0 b1 : Byte) (s : State) : (unpackOp a b0 b1 s).out = s.out := rfl

@[simp] theorem newdataOp_out (nd : NdFlags) (s : State) : (newdataOp nd s).out = s.out := rfl

@[simp] theorem unpackOp_portA (a : Axis) (b0 b1 : Byte) (s : State) : (unpackOp a b0 b1 s).portA = s.portA := rfl

@[simp] theorem newdataOp_portA (nd : NdFlags) (s : State) : (newdataOp nd s).portA = s.portA := rfl

@[simp] theorem unpackOp_portB (a : Axis) (b0 b1 : Byte) (s : State) : (unpackOp a b0 b1 s).portB = s.portB := rfl

@[simp] theorem newdataOp_portB (nd : NdFlags) (s : State) : (newdataOp nd s).portB = s.portB := rfl

@[simp] theorem unpackOp_portOps (a : Axis) (b0 b1 : Byte) (s : State) : (unpackOp a b0 b1 s).portOps = s.portOps := rfl

@[simp] theorem newdataOp_portOps (nd : NdFlags) (s : State) : (newdataOp nd s).portOps = s.portOps := rfl

@[simp] theorem unpackOp_stim (a : Axis) (b0 b1 : Byte) (s : State) : (unpackOp a b0 b1 s).stim = s.stim := rfl

@[simp] theorem newdataOp_stim (nd : NdFlags) (s : State) : (newdataOp nd s).stim = s.stim := rfl

/-! The filter. -/

@[simp] theorem filtPushOp_led (a : Axis) (r : Sample) (s : State) : (filtPushOp a r s).led = s.led := by cases a <;> rfl

@[simp] theorem filtMeanOp_led (a : Axis) (s : State) : (filtMeanOp a s).led = s.led := by cases a <;> rfl

@[simp] theorem filtPushOp_vint (a : Axis) (r : Sample) (s : State) : (filtPushOp a r s).vint = s.vint := by cases a <;> rfl

@[simp] theorem filtMeanOp_vint (a : Axis) (s : State) : (filtMeanOp a s).vint = s.vint := by cases a <;> rfl

@[simp] theorem filtPushOp_hint (a : Axis) (r : Sample) (s : State) : (filtPushOp a r s).hint = s.hint := by cases a <;> rfl

@[simp] theorem filtMeanOp_hint (a : Axis) (s : State) : (filtMeanOp a s).hint = s.hint := by cases a <;> rfl

@[simp] theorem filtPushOp_cnt (a : Axis) (r : Sample) (s : State) : (filtPushOp a r s).cnt = s.cnt := by cases a <;> rfl

@[simp] theorem filtMeanOp_cnt (a : Axis) (s : State) : (filtMeanOp a s).cnt = s.cnt := by cases a <;> rfl

@[simp] theorem filtPushOp_thrA (a : Axis) (r : Sample) (s : State) : (filtPushOp a r s).thrA = s.thrA := by cases a <;> rfl

@[simp] theorem filtMeanOp_thrA (a : Axis) (s : State) : (filtMeanOp a s).thrA = s.thrA := by cases a <;> rfl

@[simp] theorem filtPushOp_thrB (a : Axis) (r : Sample) (s : State) : (filtPushOp a r s).thrB = s.thrB := by cases a <;> rfl

@[simp] theorem filtMeanOp_thrB (a : Axis) (s : State) : (filtMeanOp a s).thrB = s.thrB := by cases a <;> rfl

@[simp] theorem filtPushOp_out (a : Axis) (r : Sample) (s : State) : (filtPushOp a r s).out = s.out := by cases a <;> rfl

@[simp] theorem filtMeanOp_out (a : Axis) (s : State) : (filtMeanOp a s).out = s.out := by cases a <;> rfl

@[simp] theorem filtPushOp_portA (a : Axis) (r : Sample) (s : State) : (filtPushOp a r s).portA = s.portA := by cases a <;> rfl

@[simp] theorem filtMeanOp_portA (a : Axis) (s : State) : (filtMeanOp a s).portA = s.portA := by cases a <;> rfl

@[simp] theorem filtPushOp_portB (a : Axis) (r : Sample) (s : State) : (filtPushOp a r s).portB = s.portB := by cases a <;> rfl

@[simp] theorem filtMeanOp_portB (a : Axis) (s : State) : (filtMeanOp a s).portB = s.portB := by cases a <;> rfl

@[simp] theorem filtPushOp_portOps (a : Axis) (r : Sample) (s : State) : (filtPushOp a r s).portOps = s.portOps := by cases a <;> rfl

@[simp] theorem filtMeanOp_portOps (a : Axis) (s : State) : (filtMeanOp a s).portOps = s.portOps := by cases a <;> rfl

@[simp] theorem filtPushOp_wires (a : Axis) (r : Sample) (s : State) : (filtPushOp a r s).wires = s.wires := by cases a <;> rfl

@[simp] theorem filtMeanOp_wires (a : Axis) (s : State) : (filtMeanOp a s).wires = s.wires := by cases a <;> rfl

@[simp] theorem filtPushOp_stim (a : Axis) (r : Sample) (s : State) : (filtPushOp a r s).stim = s.stim := by cases a <;> rfl

@[simp] theorem filtMeanOp_stim (a : Axis) (s : State) : (filtMeanOp a s).stim = s.stim := by cases a <;> rfl

/-! The classifier and COMMIT. -/

@[simp] theorem classifySample_toRegs (s : State) : (classifySample s).toRegs = s.toRegs := rfl

@[simp] theorem classifySample_x (s : State) : (classifySample s).x = s.x := rfl

@[simp] theorem classifySample_y (s : State) : (classifySample s).y = s.y := rfl

@[simp] theorem classifySample_z (s : State) : (classifySample s).z = s.z := rfl

@[simp] theorem classifySample_led (s : State) : (classifySample s).led = s.led := rfl

@[simp] theorem classifySample_vint (s : State) : (classifySample s).vint = s.vint := rfl

@[simp] theorem classifySample_hint (s : State) : (classifySample s).hint = s.hint := rfl

@[simp] theorem classifySample_cnt (s : State) : (classifySample s).cnt = s.cnt := rfl

@[simp] theorem classifySample_thrA (s : State) : (classifySample s).thrA = s.thrA := rfl

@[simp] theorem classifySample_thrB (s : State) : (classifySample s).thrB = s.thrB := rfl

@[simp] theorem classifySample_out (s : State) : (classifySample s).out = s.out := rfl

@[simp] theorem classifySample_portA (s : State) : (classifySample s).portA = s.portA := rfl

@[simp] theorem classifySample_portB (s : State) : (classifySample s).portB = s.portB := rfl

@[simp] theorem classifySample_portOps (s : State) : (classifySample s).portOps = s.portOps := rfl

@[simp] theorem classifySample_stim (s : State) : (classifySample s).stim = s.stim := rfl

@[simp] theorem commitOp_x (s : State) : (commitOp s).x = s.x := rfl

@[simp] theorem commitOp_y (s : State) : (commitOp s).y = s.y := rfl

@[simp] theorem commitOp_z (s : State) : (commitOp s).z = s.z := rfl

@[simp] theorem commitOp_cnt (s : State) : (commitOp s).cnt = s.cnt := rfl

@[simp] theorem commitOp_thrA (s : State) : (commitOp s).thrA = s.thrA := rfl

@[simp] theorem commitOp_thrB (s : State) : (commitOp s).thrB = s.thrB := rfl

@[simp] theorem commitOp_out (s : State) : (commitOp s).out = s.out := rfl

@[simp] theorem commitOp_portA (s : State) : (commitOp s).portA = s.portA := rfl

@[simp] theorem commitOp_portB (s : State) : (commitOp s).portB = s.portB := rfl

@[simp] theorem commitOp_portOps (s : State) : (commitOp s).portOps = s.portOps := rfl

@[simp] theorem commitOp_wires (s : State) : (commitOp s).wires = s.wires := rfl

@[simp] theorem commitOp_stim (s : State) : (commitOp s).stim = s.stim := rfl

/-! The scheduler's events. -/

@[simp] theorem pwmPeriodOp_x (s : State) : (pwmPeriodOp s).x = s.x := rfl

@[simp] theorem pwmPeriodOp_y (s : State) : (pwmPeriodOp s).y = s.y := rfl

@[simp] theorem pwmPeriodOp_z (s : State) : (pwmPeriodOp s).z = s.z := rfl

@[simp] theorem pwmPeriodOp_vint (s : State) : (pwmPeriodOp s).vint = s.vint := rfl

@[simp] theorem pwmPeriodOp_hint (s : State) : (pwmPeriodOp s).hint = s.hint := rfl

@[simp] theorem pwmPeriodOp_cnt (s : State) : (pwmPeriodOp s).cnt = s.cnt := rfl

@[simp] theorem pwmPeriodOp_wires (s : State) : (pwmPeriodOp s).wires = s.wires := rfl

@[simp] theorem pwmPeriodOp_stim (s : State) : (pwmPeriodOp s).stim = s.stim := rfl

@[simp] theorem pwmPeriodOp_lane (s : State) (a : Axis) : (pwmPeriodOp s).lane a = s.lane a := by cases a <;> rfl

@[simp] theorem pwmCmpAOp_x (s : State) : (pwmCmpAOp s).x = s.x := rfl

@[simp] theorem pwmCmpAOp_y (s : State) : (pwmCmpAOp s).y = s.y := rfl

@[simp] theorem pwmCmpAOp_z (s : State) : (pwmCmpAOp s).z = s.z := rfl

@[simp] theorem pwmCmpAOp_vint (s : State) : (pwmCmpAOp s).vint = s.vint := rfl

@[simp] theorem pwmCmpAOp_hint (s : State) : (pwmCmpAOp s).hint = s.hint := rfl

@[simp] theorem pwmCmpAOp_cnt (s : State) : (pwmCmpAOp s).cnt = s.cnt := rfl

@[simp] theorem pwmCmpAOp_thrA (s : State) : (pwmCmpAOp s).thrA = s.thrA := rfl

@[simp] theorem pwmCmpAOp_thrB (s : State) : (pwmCmpAOp s).thrB = s.thrB := rfl

@[simp] theorem pwmCmpAOp_wires (s : State) : (pwmCmpAOp s).wires = s.wires := rfl

@[simp] theorem pwmCmpAOp_stim (s : State) : (pwmCmpAOp s).stim = s.stim := rfl

@[simp] theorem pwmCmpAOp_lane (s : State) (a : Axis) : (pwmCmpAOp s).lane a = s.lane a := by cases a <;> rfl

@[simp] theorem pwmCmpBOp_x (s : State) : (pwmCmpBOp s).x = s.x := rfl

@[simp] theorem pwmCmpBOp_y (s : State) : (pwmCmpBOp s).y = s.y := rfl

@[simp] theorem pwmCmpBOp_z (s : State) : (pwmCmpBOp s).z = s.z := rfl

@[simp] theorem pwmCmpBOp_vint (s : State) : (pwmCmpBOp s).vint = s.vint := rfl

@[simp] theorem pwmCmpBOp_hint (s : State) : (pwmCmpBOp s).hint = s.hint := rfl

@[simp] theorem pwmCmpBOp_cnt (s : State) : (pwmCmpBOp s).cnt = s.cnt := rfl

@[simp] theorem pwmCmpBOp_thrA (s : State) : (pwmCmpBOp s).thrA = s.thrA := rfl

@[simp] theorem pwmCmpBOp_thrB (s : State) : (pwmCmpBOp s).thrB = s.thrB := rfl

@[simp] theorem pwmCmpBOp_wires (s : State) : (pwmCmpBOp s).wires = s.wires := rfl

@[simp] theorem pwmCmpBOp_stim (s : State) : (pwmCmpBOp s).stim = s.stim := rfl

@[simp] theorem pwmCmpBOp_lane (s : State) (a : Axis) : (pwmCmpBOp s).lane a = s.lane a := by cases a <;> rfl

@[simp] theorem pwmPeriodOp_led (s : State) : (pwmPeriodOp s).led = setBySign s.vint s.hint s.led := rfl

@[simp] theorem pwmPeriodOp_out (s : State) : (pwmPeriodOp s).out = setBySign s.vint s.hint s.led := rfl

@[simp] theorem pwmPeriodOp_thrA (s : State) : (pwmPeriodOp s).thrA = thresholdOf s.vint := rfl

@[simp] theorem pwmPeriodOp_thrB (s : State) : (pwmPeriodOp s).thrB = thresholdOf s.hint := rfl

@[simp] theorem pwmCmpAOp_led (s : State) : (pwmCmpAOp s).led = s.led.clearVertical := rfl

@[simp] theorem pwmCmpAOp_out (s : State) : (pwmCmpAOp s).out = s.out.clearVertical := rfl

@[simp] theorem pwmCmpBOp_led (s : State) : (pwmCmpBOp s).led = s.led.clearHorizontal := rfl

@[simp] theorem pwmCmpBOp_out (s : State) : (pwmCmpBOp s).out = s.out.clearHorizontal := rfl

end Sys2Proof.Machine
end

