-- ==== Sys2Proof/Laws/Ops.lean ====
section
/-! SUPPORT. The shared operations, each with the lemma that says what it does: the ring memory, the exact sum and its
truncated mean, the clamp, the ports' bits, the stimulus stream. -/

namespace Sys2Proof.Machine

/-! The ring memory. -/

theorem memRead_memWrite_same (s : State) (a : Axis) (i : Slot) (v : Sample) :
    memRead (memWrite s a i v) a i = v := by
  simp [memRead, memWrite]

theorem memRead_memWrite_other_slot (s : State) (a : Axis) {i j : Slot} (v : Sample) (h : j ≠ i) :
    memRead (memWrite s a i v) a j = memRead s a j := by
  have : i.val ≠ j.val := fun e => h (Fin.ext e.symm)
  simp [memRead, memWrite, Vector.getElem_set_ne, this]

theorem memRead_memWrite_other_axis (s : State) {a b : Axis} (i j : Slot) (v : Sample) (h : b ≠ a) :
    memRead (memWrite s a i v) b j = memRead s b j := by
  simp [memRead, memWrite, setLane_lane_of_ne, h]

/-- What one write does to every read. -/
theorem memRead_memWrite (s : State) (a b : Axis) (i j : Slot) (v : Sample) :
    memRead (memWrite s a i v) b j = if b = a ∧ j = i then v else memRead s b j := by
  by_cases hb : b = a
  · subst hb
    by_cases hj : j = i
    · subst hj; simp [memRead_memWrite_same]
    · simp [hj, memRead_memWrite_other_slot]
  · simp [hb, memRead_memWrite_other_axis]

/-- Two states with the same lane read the same slots. -/
theorem memRead_congr {s t : State} {a : Axis} (h : s.lane a = t.lane a) (i : Slot) : memRead s a i = memRead t a i := by
  simp [memRead, h]

theorem ringSum_congr {s t : State} {a : Axis} (h : ∀ i, memRead s a i = memRead t a i) : ringSum s a = ringSum t a := by
  simp [ringSum, h]

/-- The sum of R101 as a sum over the slot indices. -/
theorem ringSum_eq_sum (s : State) (a : Axis) : ringSum s a = ∑ i : Slot, (memRead s a i).toInt := by
  simp [ringSum, slots, Fin.sum_univ_succ]
  ring_nf

theorem nextCursor_toNat (c : Cursor) : (nextCursor c).toNat = (c.toNat + 1) % 16 := by
  simp [nextCursor]

/-- R13: "for `sum >= 0` the result is `floor(sum/16)`, for `sum < 0` it is `-floor(-sum/16)`". -/
theorem tdiv_sixteen (a : Int) : tdiv a 16 = if 0 ≤ a then a / 16 else -(-a / 16) := by
  unfold tdiv
  split_ifs with h
  · exact Int.tdiv_eq_ediv_of_nonneg h
  · rw [← Int.tdiv_eq_ediv_of_nonneg (by omega), Int.neg_tdiv, neg_neg]

theorem tdiv_sixteen_bounds {a : Int} (h : -524288 ≤ a ∧ a ≤ 524272) : -32768 ≤ tdiv a 16 ∧ tdiv a 16 ≤ 32767 := by
  rw [tdiv_sixteen]; split_ifs <;> omega

theorem clamp_bounds {a lo hi : Int} (h : lo ≤ hi) : lo ≤ clamp a lo hi ∧ clamp a lo hi ≤ hi := by
  unfold clamp; split_ifs <;> omega

theorem clamp_of_mem {a lo hi : Int} (h : lo ≤ a) (h' : a ≤ hi) : clamp a lo hi = a := by
  unfold clamp; split_ifs <;> omega

/-- A signed 8-bit pattern of an integer that fits reads back as that integer. -/
theorem intensity_ofInt_toInt {a : Int} (h : -128 ≤ a) (h' : a < 128) : (BitVec.ofInt 8 a).toInt = a := by
  rw [BitVec.toInt_ofInt]
  exact Int.bmod_eq_of_le (by norm_num; omega) (by norm_num; omega)

/-- A signed 16-bit pattern of an integer that fits reads back as that integer. -/
theorem sample_ofInt_toInt {a : Int} (h : -32768 ≤ a) (h' : a < 32768) : (BitVec.ofInt 16 a).toInt = a := by
  rw [BitVec.toInt_ofInt]
  exact Int.bmod_eq_of_le (by norm_num; omega) (by norm_num; omega)

theorem sample_toInt_bounds (v : Sample) : -32768 ≤ v.toInt ∧ v.toInt ≤ 32767 := by
  have h1 := BitVec.le_toInt v
  have h2 := BitVec.toInt_lt (x := v)
  norm_num at h1 h2; omega

theorem intensity_toInt_bounds (v : Intensity) : -128 ≤ v.toInt ∧ v.toInt ≤ 127 := by
  have h1 := BitVec.le_toInt v
  have h2 := BitVec.toInt_lt (x := v)
  norm_num at h1 h2; omega

/-! The ports. -/

theorem putBit_getLsbD {w : Nat} (v : BitVec w) (p q : Nat) (b : Bool) (hp : p < w) :
    (putBit v p b).getLsbD q = if q = p then b else v.getLsbD q := by
  unfold putBit
  by_cases hq : q = p
  · subst hq; cases b <;> simp [hp]
  · have hq' : ¬p = q := fun e => hq e.symm
    by_cases hw : q < w
    · cases b <;> simp [hq, hw]
    · have hv : v.getLsbD q = false := BitVec.getLsbD_of_ge v q (by omega)
      cases b <;> simp [hq, hq', hw, hv]

/-- The model's port parameters are ones that R150 allows. -/
theorem ports_valid : Config.ports.valid = true := by
  unfold Config.ports
  split
  · assumption
  · decide

/-- What R150's constraints say, one by one. -/
theorem ports_positions :
    2 * Config.ports.paCenter < Config.portW ∧ 2 * Config.ports.paRight < Config.portW ∧
    2 * Config.ports.paUp < Config.portW ∧
    (Config.portW ≤ 2 * Config.ports.pbDown ∧ Config.ports.pbDown < Config.portW) ∧
    (Config.portW ≤ 2 * Config.ports.pbLeft ∧ Config.ports.pbLeft < Config.portW) ∧
    Config.ports.paCenter ≠ Config.ports.paRight ∧ Config.ports.paCenter ≠ Config.ports.paUp ∧
    Config.ports.paRight ≠ Config.ports.paUp ∧ Config.ports.pbDown ≠ Config.ports.pbLeft := by
  have h := ports_valid
  simp [PortParams.valid] at h
  simp [Config.portW]
  omega

/-! The stimulus stream. -/

theorem takeWord_nil {s : State} (h : s.stim = []) : takeWord s = (0, s) := by simp [takeWord, h]

theorem takeWord_cons {s : State} {w : Stimulus} {rest : List Stimulus} (h : s.stim = w :: rest) :
    takeWord s = (w, { s with stim := rest }) := by simp [takeWord, h]

theorem takeWord_offerWord (s : State) (w : Stimulus) : takeWord (offerWord s w) = (w, s) := rfl

end Sys2Proof.Machine
end

