-- ==== Sys2Proof/Laws/Classifier.lean ====
section
/-! SUPPORT. What the classifier's sub-operations compute (42_classifier.md). -/

namespace Sys2Proof.Machine

@[simp] theorem threshLeds_up (x' y' : Int) : (threshLeds x' y').up = decide (10 < x') := by
  unfold threshLeds; split_ifs <;> simp_all

@[simp] theorem threshLeds_down (x' y' : Int) : (threshLeds x' y').down = decide (x' < -10) := by
  unfold threshLeds; split_ifs <;> simp_all

@[simp] theorem threshLeds_right (x' y' : Int) : (threshLeds x' y').right = decide (10 < y') := by
  unfold threshLeds; split_ifs <;> simp_all

@[simp] theorem threshLeds_left (x' y' : Int) : (threshLeds x' y').left = decide (y' < -10) := by
  unfold threshLeds; split_ifs <;> simp_all

theorem threshLeds_center (x' y' : Int) :
    (threshLeds x' y').center = decide (-10 ≤ x' ∧ x' ≤ 10 ∧ -10 ≤ y' ∧ y' ≤ 10) := by
  unfold threshLeds; split_ifs <;> simp_all

theorem vertIntensity_toInt (x' : Int) : (vertIntensity x').toInt = clamp (-x') (-100) 100 := by
  have h := clamp_bounds (a := -x') (lo := -100) (hi := 100) (by norm_num)
  exact intensity_ofInt_toInt (by simp only [Config.vSatNeg, Config.vSatPos]; omega)
    (by simp only [Config.vSatNeg, Config.vSatPos]; omega)

theorem horizIntensity_toInt (y' : Int) : (horizIntensity y').toInt = clamp y' (-100) 100 := by
  have h := clamp_bounds (a := y') (lo := -100) (hi := 100) (by norm_num)
  exact intensity_ofInt_toInt (by simp only [Config.hSatNeg, Config.hSatPos]; omega)
    (by simp only [Config.hSatNeg, Config.hSatPos]; omega)

/-- COMMIT after the four sub-operations publishes CLASSIFY of the smoothed sample (R115, R162). -/
theorem commit_classifySample (s : State) :
    (commitOp (classifySample s)).led = (classify s.x.sm s.y.sm s.z.sm).1 ∧
    (commitOp (classifySample s)).vint = (classify s.x.sm s.y.sm s.z.sm).2.1 ∧
    (commitOp (classifySample s)).hint = (classify s.x.sm s.y.sm s.z.sm).2.2 := ⟨rfl, rfl, rfl⟩

end Sys2Proof.Machine
end

