-- ==== Sys2Proof/Laws/Decode.lean ====
section
/-! SUPPORT. Fields and words: each determines the other, and an operand is its two bytes (30_encoding.md R70, R72). -/

namespace Sys2Proof

theorem beSample_bytes (v : Sample) : beSample (highByte v) (lowByte v) = v := by
  apply BitVec.eq_of_getLsbD_eq
  intro i hi
  simp only [beSample, highByte, lowByte, BitVec.getLsbD_append, BitVec.getLsbD_extractLsb']
  by_cases h : i < 8
  · simp [h]
  · simp only [h, decide_false, if_false]
    rw [show 8 + (i - 8) = i by omega]; simp; omega

theorem highByte_beSample (h l : Byte) : highByte (beSample h l) = h := by
  apply BitVec.eq_of_getLsbD_eq
  intro i hi
  simp only [highByte, beSample, BitVec.getLsbD_append, BitVec.getLsbD_extractLsb']
  simp [hi]

theorem lowByte_beSample (h l : Byte) : lowByte (beSample h l) = l := by
  apply BitVec.eq_of_getLsbD_eq
  intro i hi
  simp only [lowByte, beSample, BitVec.getLsbD_append, BitVec.getLsbD_extractLsb']
  simp [hi]

/-- Every bit of a word, by byte. -/
theorem toWord_getLsbD (f : Fields) (i : Nat) : f.toWord.getLsbD i =
    if i < 8 then f.b5.getLsbD i else if i < 16 then f.b4.getLsbD (i - 8) else if i < 24 then f.b3.getLsbD (i - 16)
    else if i < 32 then f.b2.getLsbD (i - 24) else if i < 40 then f.b1.getLsbD (i - 32)
    else if i < 48 then f.b0.getLsbD (i - 40) else f.ev.getLsbD (i - 48) := by
  simp only [Fields.toWord, BitVec.getLsbD_append]
  split_ifs <;> first | omega | congr 1

/-- Every bit of the event byte (R70). -/
theorem ev_getLsbD (f : Fields) (i : Nat) : f.ev.getLsbD i =
    if i = 0 then f.smp else if i = 1 then f.tick else if i = 2 then f.rst else if i = 3 then f.raw
    else if i < 7 then f.nd.getLsbD (i - 4) else if i = 7 then f.res else false := by
  rcases Nat.lt_or_ge i 8 with h | h
  · simp only [Fields.ev, BitVec.getLsbD_append, BitVec.getLsbD_ofBool]
    interval_cases i <;> norm_num
  · rw [BitVec.getLsbD_of_ge f.ev i h]
    split_ifs <;> first | rfl | omega

theorem toWord_ev_bit (f : Fields) (i : Nat) (h : i < 8) : f.toWord.getLsbD (48 + i) = f.ev.getLsbD i := by
  rw [toWord_getLsbD]
  split_ifs <;> first | omega | (congr 1; omega)

/-- Fields survive the word: no bit of the encoding is dropped. -/
theorem ofWord_toWord (f : Fields) : Fields.ofWord f.toWord = f := by
  have hb : ∀ (k : Nat) (b : Byte), (∀ i < 8, f.toWord.getLsbD (k + i) = b.getLsbD i) →
      f.toWord.extractLsb' k 8 = b := fun k b h => BitVec.eq_of_getLsbD_eq fun i hi => by
    rw [BitVec.getLsbD_extractLsb', h i hi]; simp [hi]
  have h0 := hb 40 f.b0 fun i hi => by rw [toWord_getLsbD]; split_ifs <;> first | omega | (congr 1; omega)
  have h1 := hb 32 f.b1 fun i hi => by rw [toWord_getLsbD]; split_ifs <;> first | omega | (congr 1; omega)
  have h2 := hb 24 f.b2 fun i hi => by rw [toWord_getLsbD]; split_ifs <;> first | omega | (congr 1; omega)
  have h3 := hb 16 f.b3 fun i hi => by rw [toWord_getLsbD]; split_ifs <;> first | omega | (congr 1; omega)
  have h4 := hb 8 f.b4 fun i hi => by rw [toWord_getLsbD]; split_ifs <;> first | omega | (congr 1; omega)
  have h5 := hb 0 f.b5 fun i hi => by rw [toWord_getLsbD]; split_ifs <;> first | omega | (congr 1; omega)
  have hnd : f.toWord.extractLsb' 52 3 = f.nd := BitVec.eq_of_getLsbD_eq fun i hi => by
    rw [BitVec.getLsbD_extractLsb', show 52 + i = 48 + (4 + i) by omega, toWord_ev_bit f _ (by omega), ev_getLsbD]
    have hi' : ¬4 + i = 0 ∧ ¬4 + i = 1 ∧ ¬4 + i = 2 ∧ ¬4 + i = 3 := by omega
    simp [hi, hi']
    omega
  have hs : f.toWord.getLsbD 48 = f.smp := (toWord_ev_bit f 0 (by omega)).trans (by rw [ev_getLsbD]; norm_num)
  have ht : f.toWord.getLsbD 49 = f.tick := (toWord_ev_bit f 1 (by omega)).trans (by rw [ev_getLsbD]; norm_num)
  have hr : f.toWord.getLsbD 50 = f.rst := (toWord_ev_bit f 2 (by omega)).trans (by rw [ev_getLsbD]; norm_num)
  have hw : f.toWord.getLsbD 51 = f.raw := (toWord_ev_bit f 3 (by omega)).trans (by rw [ev_getLsbD]; norm_num)
  have he : f.toWord.getLsbD 55 = f.res := (toWord_ev_bit f 7 (by omega)).trans (by rw [ev_getLsbD]; norm_num)
  rw [Fields.ofWord, h0, h1, h2, h3, h4, h5, hnd, hs, ht, hr, hw, he]

/-- Decoding the word of fields is naming their operation. -/
theorem decode_toWord (f : Fields) :
    decode f.toWord = if f.res then .error .reservedEv7 else .ok f.operation := by
  rw [decode, ofWord_toWord]

theorem beSample_extract (w : Stimulus) (k : Nat) :
    beSample (w.extractLsb' (k + 8) 8) (w.extractLsb' k 8) = w.extractLsb' k 16 := by
  apply BitVec.eq_of_getLsbD_eq
  intro i hi
  simp only [beSample, BitVec.getLsbD_append, BitVec.getLsbD_extractLsb', hi]
  by_cases h : i < 8
  · simp [h]
  · have h' : i - 8 < 8 := by omega
    simp only [h, h', decide_true, Bool.true_and, if_false]
    rw [show k + 8 + (i - 8) = k + i by omega]

/-- A concatenation as a number: the more significant part counts by the other's width (R7). -/
theorem append_toNat {m n : Nat} (x : BitVec m) (y : BitVec n) : (x ++ y).toNat = x.toNat * 2 ^ n + y.toNat := by
  rw [BitVec.toNat_append, ← Nat.shiftLeft_add_eq_or_of_lt y.isLt, Nat.shiftLeft_eq]

theorem bytes_toNat (v : Sample) : (highByte v).toNat * 2 ^ 8 + (lowByte v).toNat = v.toNat := by
  conv_rhs => rw [← beSample_bytes v, beSample, append_toNat]

/-- An operand after anything is its two bytes after it. -/
theorem append_bytes {n : Nat} (x : BitVec n) (v : Sample) :
    (x ++ highByte v ++ lowByte v : BitVec (n + 16)) = x ++ v := by
  apply BitVec.eq_of_toNat_eq
  have hl : BitVec.toNat (w := n + 16) (x ++ highByte v ++ lowByte v) = (x ++ highByte v).toNat * 2 ^ 8 + (lowByte v).toNat :=
    append_toNat _ _
  rw [hl, append_toNat, append_toNat, ← bytes_toNat v]
  ring

/-- A word that offers a pre-assembled sample is its event byte and its operands (R70, R72). -/
theorem ofSample_toWord (tick : Bool) (rx ry rz : Sample) :
    (Fields.ofSample tick rx ry rz).toWord = (Fields.ofSample tick rx ry rz).ev ++ rx ++ ry ++ rz :=
  (congrArg (fun u : BitVec 24 => (u ++ highByte ry ++ lowByte ry ++ highByte rz ++ lowByte rz : Stimulus))
    (append_bytes _ rx)).trans <|
  (congrArg (fun u : BitVec 40 => (u ++ highByte rz ++ lowByte rz : Stimulus)) (append_bytes _ ry)).trans
    (append_bytes _ rz)

/-! The bits of a burst's low byte that count. -/

theorem fieldBits_fieldBits (b : Byte) : fieldBits (fieldBits b) = fieldBits b := by
  simp [fieldBits, BitVec.and_assoc]

/-- Clearing the unexamined bits changes nothing exactly when they are 0 already. -/
theorem fieldBits_eq_self_iff (b : Byte) : fieldBits b = b ↔ b &&& 0x3F = 0 := by
  revert b; decide

theorem canonical_canonical (i : Instr) : i.canonical.canonical = i.canonical := by
  cases i <;> simp [Instr.canonical, fieldBits_fieldBits]

theorem canonical_wellFormed (i : Instr) : i.canonical.wellFormed = i.wellFormed := by cases i <;> rfl

end Sys2Proof
end

