-- ==== Sys2Proof/Laws/Filter.lean ====
section
/-! SUPPORT. What FILT.PUSH and FILT.MEAN do to slots, cursors and means (41_filter.md). -/

namespace Sys2Proof.Machine

/-- Every read after FILT.PUSH: the slot at the old cursor holds the new value, all others are as before (R100). -/
theorem filtPushOp_memRead (a b : Axis) (r : Sample) (s : State) (j : Slot) :
    memRead (filtPushOp a r s) b j = if b = a ∧ j = slotOf (s.lane a).cur then r else memRead s b j := by
  rw [← memRead_memWrite]
  by_cases h : b = a
  · subst h; simp [filtPushOp, memRead]
  · simp [filtPushOp, memRead, setLane_lane_of_ne, h]

theorem filtPushOp_cur_self (a : Axis) (r : Sample) (s : State) :
    ((filtPushOp a r s).lane a).cur = nextCursor (s.lane a).cur := by
  simp [filtPushOp]

theorem filtPushOp_sm (a b : Axis) (r : Sample) (s : State) : ((filtPushOp a r s).lane b).sm = (s.lane b).sm := by
  cases a <;> cases b <;> rfl

theorem filtPushOp_lane_of_ne (r : Sample) (s : State) {a b : Axis} (h : b ≠ a) :
    (filtPushOp a r s).lane b = s.lane b := by
  simp [filtPushOp, memWrite, setLane_lane_of_ne, h]

theorem filtMeanOp_memRead (a b : Axis) (s : State) (j : Slot) : memRead (filtMeanOp a s) b j = memRead s b j := by
  cases a <;> cases b <;> rfl

theorem filtMeanOp_cur (a b : Axis) (s : State) : ((filtMeanOp a s).lane b).cur = (s.lane b).cur := by
  cases a <;> cases b <;> rfl

theorem filtMeanOp_sm_self (a : Axis) (s : State) : ((filtMeanOp a s).lane a).sm = ringMean s a := by
  simp [filtMeanOp]

theorem filtMeanOp_lane_of_ne (s : State) {a b : Axis} (h : b ≠ a) : (filtMeanOp a s).lane b = s.lane b := by
  simp [filtMeanOp, setLane_lane_of_ne, h]

/-- "The sum of 16 signed 16-bit values lies in -524288..524272" (R101). -/
theorem ringSum_bounds (s : State) (a : Axis) : -524288 ≤ ringSum s a ∧ ringSum s a ≤ 524272 := by
  rw [ringSum_eq_sum]
  have lower := Finset.card_nsmul_le_sum Finset.univ (fun i : Slot => (memRead s a i).toInt) (-32768)
    fun i _ => (sample_toInt_bounds _).1
  have upper := Finset.sum_le_card_nsmul Finset.univ (fun i : Slot => (memRead s a i).toInt) 32767
    fun i _ => (sample_toInt_bounds _).2
  simp only [Finset.card_univ, Fintype.card_fin, nsmul_eq_mul] at lower upper
  push_cast at lower upper
  omega

/-- The mean register holds the truncated quotient exactly: "`sm_a` never overflows its 16 bits" (R101). -/
theorem ringMean_toInt (s : State) (a : Axis) : (ringMean s a).toInt = tdiv (ringSum s a) 16 := by
  have h := tdiv_sixteen_bounds (ringSum_bounds s a)
  exact sample_ofInt_toInt h.1 (Int.lt_of_le_of_lt h.2 (by norm_num))

end Sys2Proof.Machine
end

