-- ==== Sys2Proof/Laws/PerInstr.lean ====
section
/-! SUPPORT. Statements for all instructions, made per instruction. -/

namespace Sys2Proof.Laws.Encoding

/-- An instruction has a canonical word exactly when it is an operation of its own (30_encoding.md R74, R76), and a
sub-operation or event examines no bit of the word. -/
def Statement (i : Instr) : Prop :=
  (encode i).isSome = i.wellFormed ∧ (i.wellFormed = false → i.examined = 0)

theorem reset : Statement .reset := by
  simp [Statement, encode, Instr.fields, Instr.wellFormed]

theorem idle : Statement .idle := by
  simp [Statement, encode, Instr.fields, Instr.wellFormed]

theorem tick : Statement .tick := by
  simp [Statement, encode, Instr.fields, Instr.wellFormed]

theorem sample (rx ry rz : Sample) : Statement (.sample rx ry rz) := by
  simp [Statement, encode, Instr.fields, Instr.wellFormed]

theorem tickSample (rx ry rz : Sample) : Statement (.tickSample rx ry rz) := by
  simp [Statement, encode, Instr.fields, Instr.wellFormed]

theorem sampler (nd : NdFlags) (b0 b1 b2 b3 b4 b5 : Byte) : Statement (.sampler nd b0 b1 b2 b3 b4 b5) := by
  simp [Statement, encode, Instr.fields, Instr.wellFormed]

theorem tickSampler (nd : NdFlags) (b0 b1 b2 b3 b4 b5 : Byte) : Statement (.tickSampler nd b0 b1 b2 b3 b4 b5) := by
  simp [Statement, encode, Instr.fields, Instr.wellFormed]

theorem unpack (a : Axis) (b0 b1 : Byte) : Statement (.unpack a b0 b1) := by
  simp [Statement, encode, Instr.fields, Instr.wellFormed, Instr.examined]

theorem newdata (nd : NdFlags) : Statement (.newdata nd) := by
  simp [Statement, encode, Instr.fields, Instr.wellFormed, Instr.examined]

theorem filtPush (a : Axis) (r : Sample) : Statement (.filtPush a r) := by
  simp [Statement, encode, Instr.fields, Instr.wellFormed, Instr.examined]

theorem filtMean (a : Axis) : Statement (.filtMean a) := by
  simp [Statement, encode, Instr.fields, Instr.wellFormed, Instr.examined]

theorem clsAbs : Statement .clsAbs := by
  simp [Statement, encode, Instr.fields, Instr.wellFormed, Instr.examined]

theorem clsRemap : Statement .clsRemap := by
  simp [Statement, encode, Instr.fields, Instr.wellFormed, Instr.examined]

theorem clsThresh : Statement .clsThresh := by
  simp [Statement, encode, Instr.fields, Instr.wellFormed, Instr.examined]

theorem clsIntens : Statement .clsIntens := by
  simp [Statement, encode, Instr.fields, Instr.wellFormed, Instr.examined]

theorem commit : Statement .commit := by
  simp [Statement, encode, Instr.fields, Instr.wellFormed, Instr.examined]

theorem pwmPeriod : Statement .pwmPeriod := by
  simp [Statement, encode, Instr.fields, Instr.wellFormed, Instr.examined]

theorem pwmCmpA : Statement .pwmCmpA := by
  simp [Statement, encode, Instr.fields, Instr.wellFormed, Instr.examined]

theorem pwmCmpB : Statement .pwmCmpB := by
  simp [Statement, encode, Instr.fields, Instr.wellFormed, Instr.examined]

theorem portMap : Statement .portMap := by
  simp [Statement, encode, Instr.fields, Instr.wellFormed, Instr.examined]

end Sys2Proof.Laws.Encoding
end

