-- ==== Sys2Proof/Laws/Ports.lean ====
section
/-! SUPPORT. The Port Driver, bit by bit (44_port_driver.md R150, R152), for every allowed choice of the open
parameters. -/

namespace Sys2Proof.Machine

open Sys2Proof.Safety

theorem portAMap_getLsbD {w : Nat} (p : PortParams) (o : Leds) (old : BitVec w) (hc : p.paCenter < w)
    (hr : p.paRight < w) (hu : p.paUp < w) (q : Nat) :
    (portAMap p o old).getLsbD q =
      if q = p.paUp then lvl p o.up else if q = p.paRight then lvl p o.right
      else if q = p.paCenter then lvl p o.center else old.getLsbD q := by
  rw [portAMap, putBit_getLsbD _ _ _ _ hu, putBit_getLsbD _ _ _ _ hr, putBit_getLsbD _ _ _ _ hc]

theorem portBMap_getLsbD {w : Nat} (p : PortParams) (o : Leds) (old : BitVec w) (hd : p.pbDown < w)
    (hl : p.pbLeft < w) (q : Nat) :
    (portBMap p o old).getLsbD q =
      if q = p.pbLeft then lvl p o.left else if q = p.pbDown then lvl p o.down else old.getLsbD q := by
  rw [portBMap, putBit_getLsbD _ _ _ _ hl, putBit_getLsbD _ _ _ _ hd]

/-- After PORTMAP the ports show `out`, and their other bits are the old ones. -/
theorem drivePorts_driven {s u : State} (h : u.portOps = s.portOps) : PortsDriven s (drivePorts u) := by
  obtain ⟨h1, h2, h3, ⟨-, h4⟩, ⟨-, h5⟩, h6, h7, h8, h9⟩ := ports_positions
  have hc : Config.ports.paCenter < Config.portW := by omega
  have hr : Config.ports.paRight < Config.portW := by omega
  have hu : Config.ports.paUp < Config.portW := by omega
  refine ⟨⟨?_, ?_, ?_, ?_, ?_⟩, by simp [h], fun p a b c => ?_, fun p a b => ?_⟩ <;>
    simp only [drivePorts_portA, drivePorts_portB, drivePorts_out, portAMap_getLsbD _ _ _ hc hr hu,
      portBMap_getLsbD _ _ _ h4 h5, if_true] <;> simp [*]

/-- Ports that show `out` are what every PORTMAP leaves. -/
theorem drivePorts_showOut (s : State) : PortsShowOut (drivePorts s) := (drivePorts_driven (s := s) rfl).1

end Sys2Proof.Machine
end

