-- ==== Sys2Proof/Laws/Pwm.lean ====
section
/-! SUPPORT. What TICK and its events do (43_pwm.md). -/

namespace Sys2Proof.Machine

theorem nextCount_toNat (c : Count) : (nextCount c).toNat = (c.toNat + 1) % 100 := by
  have : (c.toNat + 1) % 100 < 128 := by omega
  simp [nextCount, Nat.mod_eq_of_lt this]

theorem nextCount_eq_zero (c : Count) : nextCount c = 0 ↔ (c.toNat + 1) % 100 = 0 := by
  rw [← nextCount_toNat]
  constructor
  · intro h; simp [h]
  · intro h; exact BitVec.eq_of_toNat_eq (by simpa using h)

/-- Every magnitude that 7 bits hold is loaded as it is (R131). -/
theorem thresholdOf_toNat {v : Intensity} (h : v.toInt ≠ -128) : (thresholdOf v).toNat = v.toInt.natAbs := by
  have hb := intensity_toInt_bounds v
  have hlt : v.toInt.natAbs < 128 := by omega
  simp [thresholdOf, hlt, Nat.mod_eq_of_lt hlt]

@[simp] theorem setBySign_center (v h : Intensity) (l : Leds) : (setBySign v h l).center = l.center := by
  unfold setBySign; split_ifs <;> simp_all

@[simp] theorem setBySign_up (v h : Intensity) (l : Leds) :
    (setBySign v h l).up = (l.up || decide (v.toInt < 0)) := by
  unfold setBySign; split_ifs <;> simp_all

@[simp] theorem setBySign_down (v h : Intensity) (l : Leds) :
    (setBySign v h l).down = (l.down || decide (0 < v.toInt)) := by
  unfold setBySign; split_ifs <;> simp_all

@[simp] theorem setBySign_left (v h : Intensity) (l : Leds) :
    (setBySign v h l).left = (l.left || decide (h.toInt < 0)) := by
  unfold setBySign; split_ifs <;> simp_all

@[simp] theorem setBySign_right (v h : Intensity) (l : Leds) :
    (setBySign v h l).right = (l.right || decide (0 < h.toInt)) := by
  unfold setBySign; split_ifs <;> simp_all

/-- Everything a TICK can do: a period start, or the compare events that are due (R130). -/
theorem tickOp_cases (s : State) :
    (nextCount s.cnt = 0 ∧ tickOp s = pwmPeriodOp { s with cnt := 0 }) ∨
    (nextCount s.cnt ≠ 0 ∧ nextCount s.cnt ≠ s.thrA ∧ nextCount s.cnt ≠ s.thrB ∧
      tickOp s = { s with cnt := nextCount s.cnt }) ∨
    (nextCount s.cnt ≠ 0 ∧ nextCount s.cnt = s.thrA ∧ nextCount s.cnt ≠ s.thrB ∧
      tickOp s = pwmCmpAOp { s with cnt := nextCount s.cnt }) ∨
    (nextCount s.cnt ≠ 0 ∧ nextCount s.cnt ≠ s.thrA ∧ nextCount s.cnt = s.thrB ∧
      tickOp s = pwmCmpBOp { s with cnt := nextCount s.cnt }) ∨
    (nextCount s.cnt ≠ 0 ∧ nextCount s.cnt = s.thrA ∧ nextCount s.cnt = s.thrB ∧
      tickOp s = pwmCmpBOp (pwmCmpAOp { s with cnt := nextCount s.cnt })) := by
  by_cases h0 : nextCount s.cnt = 0
  · left; simp [tickOp, h0]
  · right
    by_cases hA : nextCount s.cnt = s.thrA <;> by_cases hB : nextCount s.cnt = s.thrB <;>
      simp only [tickOp, h0, hA, hB, if_true, if_false, ne_eq, not_true, not_false_iff, true_and, false_and,
        or_false, pwmCmpAOp_thrB] <;> simp_all

@[simp] theorem tickOp_cnt (s : State) : (tickOp s).cnt = nextCount s.cnt := by
  rcases tickOp_cases s with ⟨h, e⟩ | ⟨-, -, -, e⟩ | ⟨-, -, -, e⟩ | ⟨-, -, -, e⟩ | ⟨-, -, -, e⟩ <;> simp [e]
  exact h.symm

/-- What neither the counter's advance nor an event changes, a TICK leaves as it was. -/
theorem tickOp_view {α : Type} (f : State → α) (hcnt : ∀ u c, f { u with cnt := c } = f u)
    (hperiod : ∀ u, f (pwmPeriodOp u) = f u) (hA : ∀ u, f (pwmCmpAOp u) = f u) (hB : ∀ u, f (pwmCmpBOp u) = f u)
    (s : State) : f (tickOp s) = f s := by
  rcases tickOp_cases s with ⟨-, e⟩ | ⟨-, -, -, e⟩ | ⟨-, -, -, e⟩ | ⟨-, -, -, e⟩ | ⟨-, -, -, e⟩ <;>
    simp only [e, hperiod, hA, hB, hcnt]

@[simp] theorem tickOp_x (s : State) : (tickOp s).x = s.x :=
  tickOp_view (·.x) (fun _ _ => rfl) (fun _ => rfl) (fun _ => rfl) (fun _ => rfl) s

@[simp] theorem tickOp_y (s : State) : (tickOp s).y = s.y :=
  tickOp_view (·.y) (fun _ _ => rfl) (fun _ => rfl) (fun _ => rfl) (fun _ => rfl) s

@[simp] theorem tickOp_z (s : State) : (tickOp s).z = s.z :=
  tickOp_view (·.z) (fun _ _ => rfl) (fun _ => rfl) (fun _ => rfl) (fun _ => rfl) s

@[simp] theorem tickOp_lane (s : State) (a : Axis) : (tickOp s).lane a = s.lane a := by cases a <;> simp

@[simp] theorem tickOp_vint (s : State) : (tickOp s).vint = s.vint :=
  tickOp_view (·.vint) (fun _ _ => rfl) (fun _ => rfl) (fun _ => rfl) (fun _ => rfl) s

@[simp] theorem tickOp_hint (s : State) : (tickOp s).hint = s.hint :=
  tickOp_view (·.hint) (fun _ _ => rfl) (fun _ => rfl) (fun _ => rfl) (fun _ => rfl) s

@[simp] theorem tickOp_wires (s : State) : (tickOp s).wires = s.wires :=
  tickOp_view (·.wires) (fun _ _ => rfl) (fun _ => rfl) (fun _ => rfl) (fun _ => rfl) s

@[simp] theorem tickOp_stim (s : State) : (tickOp s).stim = s.stim :=
  tickOp_view (·.stim) (fun _ _ => rfl) (fun _ => rfl) (fun _ => rfl) (fun _ => rfl) s

end Sys2Proof.Machine
end

