-- ==== Sys2Proof/Laws/Sensor.lean ====
section
/-! SUPPORT. UNPACK as arithmetic (40_sensor_unpack.md R90, 30_encoding.md R77). -/

namespace Sys2Proof.Machine

/-- The 10-bit field as a number: the high byte times 4, plus the low byte's two top bits. -/
theorem sensorField_toNat (b0 b1 : Byte) : (sensorField b0 b1).toNat = b0.toNat * 4 + b1.toNat / 64 := by
  have h0 := b0.isLt
  have h1 := b1.isLt
  have hq : b1.toNat / 64 < 2 ^ 2 := by omega
  have e0 : (b0.toNat % 2 ^ 16) <<< 2 % 2 ^ 16 = b0.toNat <<< 2 := by
    rw [Nat.mod_eq_of_lt (a := b0.toNat) (by omega), Nat.shiftLeft_eq, Nat.mod_eq_of_lt (by omega)]
  simp only [sensorField, BitVec.toNat_or, BitVec.toNat_shiftLeft, BitVec.toNat_ushiftRight, BitVec.toNat_setWidth]
  rw [e0, Nat.mod_eq_of_lt (a := b1.toNat) (by omega), Nat.shiftRight_eq_div_pow,
    ← Nat.shiftLeft_add_eq_or_of_lt hq, Nat.shiftLeft_eq]

theorem sensorField_lt (b0 b1 : Byte) : (sensorField b0 b1).toNat < 1024 := by
  rw [sensorField_toNat]; have := b0.isLt; have := b1.isLt; omega

/-- UNPACK: the field below 512, and the field less 1024 from there on (R77). -/
theorem unpackSample_toInt (b0 b1 : Byte) :
    (unpackSample b0 b1).toInt =
      if b0.toNat * 4 + b1.toNat / 64 < 512 then ((b0.toNat * 4 + b1.toNat / 64 : Nat) : Int)
      else ((b0.toNat * 4 + b1.toNat / 64 : Nat) : Int) - 1024 := by
  have hlt := sensorField_lt b0 b1
  have hbit : (sensorField b0 b1).getLsbD 9 = decide (512 ≤ (sensorField b0 b1).toNat) := by
    rw [BitVec.getLsbD, Nat.testBit_eq_decide_div_mod_eq]
    congr 1
    apply propext; norm_num; omega
  have hor : (sensorField b0 b1 ||| 0xFC00).toNat = (sensorField b0 b1).toNat + 64512 := by
    have := Nat.shiftLeft_add_eq_or_of_lt (i := 10) (b := (sensorField b0 b1).toNat) (by omega) 63
    rw [BitVec.toNat_or, Nat.or_comm]
    change 63 <<< 10 ||| _ = _
    rw [← this]; omega
  rw [← sensorField_toNat]
  unfold unpackSample
  rw [hbit]
  by_cases h : 512 ≤ (sensorField b0 b1).toNat
  · simp only [h, decide_true, if_true, BitVec.toInt_eq_toNat_cond, hor]
    rw [if_neg (by omega), if_neg (by omega)]; push_cast; omega
  · simp only [h, decide_false, Bool.false_eq_true, if_false, BitVec.toInt_eq_toNat_cond]
    rw [if_pos (by omega), if_pos (by omega)]

/-- "`b1`'s six low bits never matter" (R90): UNPACK of the bits that count is UNPACK. -/
theorem unpackSample_fieldBits (b0 b1 : Byte) : unpackSample b0 (fieldBits b1) = unpackSample b0 b1 := by
  have h : (fieldBits b1).toNat / 64 = b1.toNat / 64 := by revert b1; decide
  apply BitVec.eq_of_toInt_eq
  rw [unpackSample_toInt, unpackSample_toInt, h]

end Sys2Proof.Machine
end

