-- ==== Sys2Proof/Laws/System.lean ====
section
/-! SUPPORT. What an accepted sample does, what the raw form comes to, and what a step is. -/

namespace Sys2Proof.Machine

/-- The raw operand of an axis among the three of a SAMPLE. -/
def rawOf (rx ry rz : Sample) : Axis → Sample
  | .x => rx
  | .y => ry
  | .z => rz

/-- What the timer agent owns, and the ports, are untouched by SAMPLE (R162). -/
@[simp] theorem sampleOp_cnt (rx ry rz : Sample) (s : State) : (sampleOp rx ry rz s).cnt = s.cnt := rfl

@[simp] theorem sampleOp_thrA (rx ry rz : Sample) (s : State) : (sampleOp rx ry rz s).thrA = s.thrA := rfl

@[simp] theorem sampleOp_thrB (rx ry rz : Sample) (s : State) : (sampleOp rx ry rz s).thrB = s.thrB := rfl

@[simp] theorem sampleOp_out (rx ry rz : Sample) (s : State) : (sampleOp rx ry rz s).out = s.out := rfl

@[simp] theorem sampleOp_portA (rx ry rz : Sample) (s : State) : (sampleOp rx ry rz s).portA = s.portA := rfl

@[simp] theorem sampleOp_portB (rx ry rz : Sample) (s : State) : (sampleOp rx ry rz s).portB = s.portB := rfl

@[simp] theorem sampleOp_portOps (rx ry rz : Sample) (s : State) : (sampleOp rx ry rz s).portOps = s.portOps := rfl

@[simp] theorem sampleOp_stim (rx ry rz : Sample) (s : State) : (sampleOp rx ry rz s).stim = s.stim := rfl

@[simp] theorem sampleOp_wires (rx ry rz : Sample) (s : State) : (sampleOp rx ry rz s).wires = Wires.idle := rfl

@[simp] theorem sampleOp_lane (rx ry rz : Sample) (s : State) (a : Axis) :
    (sampleOp rx ry rz s).lane a = (filterSample rx ry rz s).lane a := by cases a <;> rfl

/-- One lane of the filter's part of SAMPLE is that lane's push and mean: "the lanes share nothing" (R102). -/
theorem filterSample_lane (rx ry rz : Sample) (s : State) (a : Axis) :
    (filterSample rx ry rz s).lane a = (filtMeanOp a (filtPushOp a (rawOf rx ry rz a) s)).lane a := by
  cases a <;> rfl

/-- Every slot after a SAMPLE (R162). -/
theorem sampleOp_memRead (rx ry rz : Sample) (s : State) (a : Axis) (j : Slot) :
    memRead (sampleOp rx ry rz s) a j = if j = slotOf (s.lane a).cur then rawOf rx ry rz a else memRead s a j := by
  have h : (sampleOp rx ry rz s).lane a = (filtMeanOp a (filtPushOp a (rawOf rx ry rz a) s)).lane a := by
    rw [sampleOp_lane, filterSample_lane]
  rw [memRead_congr h, filtMeanOp_memRead, filtPushOp_memRead]
  simp

theorem sampleOp_cur (rx ry rz : Sample) (s : State) (a : Axis) :
    ((sampleOp rx ry rz s).lane a).cur = nextCursor (s.lane a).cur := by
  rw [sampleOp_lane, filterSample_lane, filtMeanOp_cur, filtPushOp_cur_self]

/-- The new mean is over the window that already holds the new value (R162). -/
theorem sampleOp_sm (rx ry rz : Sample) (s : State) (a : Axis) :
    ((sampleOp rx ry rz s).lane a).sm = ringMean (sampleOp rx ry rz s) a := by
  have hl : (sampleOp rx ry rz s).lane a = (filtMeanOp a (filtPushOp a (rawOf rx ry rz a) s)).lane a := by
    rw [sampleOp_lane, filterSample_lane]
  have hr : ringSum (sampleOp rx ry rz s) a = ringSum (filtPushOp a (rawOf rx ry rz a) s) a :=
    ringSum_congr fun i => by rw [memRead_congr hl, filtMeanOp_memRead]
  rw [hl, filtMeanOp_sm_self, ringMean, ringMean, hr]

/-- The published triple is CLASSIFY of the new means (R162, R167). -/
theorem sampleOp_committed (rx ry rz : Sample) (s : State) :
    (sampleOp rx ry rz s).led =
      (classify (sampleOp rx ry rz s).x.sm (sampleOp rx ry rz s).y.sm (sampleOp rx ry rz s).z.sm).1 ∧
    (sampleOp rx ry rz s).vint =
      (classify (sampleOp rx ry rz s).x.sm (sampleOp rx ry rz s).y.sm (sampleOp rx ry rz s).z.sm).2.1 ∧
    (sampleOp rx ry rz s).hint =
      (classify (sampleOp rx ry rz s).x.sm (sampleOp rx ry rz s).y.sm (sampleOp rx ry rz s).z.sm).2.2 := by
  simp only [sampleOp, dropWires_led, dropWires_vint, dropWires_hint, dropWires_x, dropWires_y, dropWires_z,
    commitOp_x, commitOp_y, commitOp_z, classifySample_x, classifySample_y, classifySample_z]
  exact commit_classifySample _

theorem filtPushOp_of_wires (a : Axis) (r : Sample) (s : State) (w : Wires) :
    filtPushOp a r { s with wires := w } = { filtPushOp a r s with wires := w } := by cases a <;> rfl

theorem filtMeanOp_of_wires (a : Axis) (s : State) (w : Wires) :
    filtMeanOp a { s with wires := w } = { filtMeanOp a s with wires := w } := by cases a <;> rfl

theorem commit_of_wires (s : State) (w : Wires) :
    dropWires (commitOp (classifySample { s with wires := w })) = dropWires (commitOp (classifySample s)) := rfl

/-- Values left inside an earlier operation have no influence on a SAMPLE (R34). -/
theorem sampleOp_of_wires (rx ry rz : Sample) (s : State) (w : Wires) :
    sampleOp rx ry rz { s with wires := w } = sampleOp rx ry rz s := by
  simp only [sampleOp, filterSample, filtPushOp_of_wires, filtMeanOp_of_wires, commit_of_wires]

/-- The raw form is SAMPLE of the unpacked values, or the skip cycle (R163). -/
theorem sampleRawOp_eq (nd : NdFlags) (b0 b1 b2 b3 b4 b5 : Byte) (s : State) :
    sampleRawOp nd b0 b1 b2 b3 b4 b5 s =
      if nd = 0b111 then sampleOp (unpackSample b0 b1) (unpackSample b2 b3) (unpackSample b4 b5) s else s := by
  have h : (newdataOp nd s).wires.accept = newDataAccepts nd := rfl
  unfold sampleRawOp
  simp only [h, newDataAccepts, beq_iff_eq]
  split_ifs
  · exact sampleOp_of_wires _ _ _ s _
  · rfl

/-- A step on a stream that offers a word of an operation (R160). -/
theorem step_of_decode {s : State} {w : Stimulus} {rest : List Stimulus} {i : Instr} (hs : s.stim = w :: rest)
    (hd : decode w = .ok i) : step s = exec i { s with stim := rest } := by
  simp [step, takeWord_cons hs, hd]

/-- Everything a step that answers a next state did: it took a word, and ran the instruction the word decodes to. -/
theorem step_next_cases {s t : State} (h : step s = .next t) :
    ∃ i : Instr, decode (takeWord s).1 = .ok i ∧ exec i (takeWord s).2 = .next t := by
  unfold step at h
  split at h
  · exact ⟨_, by assumption, h⟩
  · exact absurd h (by simp)

/-- Taking a word changes the stream only. -/
theorem takeWord_state (s : State) : ∃ ws : List Stimulus, (takeWord s).2 = { s with stim := ws } := by
  unfold takeWord
  split
  · exact ⟨s.stim, rfl⟩
  · exact ⟨_, rfl⟩

/-- A TICK does not look at the stream. -/
theorem tickOp_of_stim (s : State) (ws : List Stimulus) :
    tickOp { s with stim := ws } = { tickOp s with stim := ws } := by
  unfold tickOp
  dsimp only
  split_ifs <;> first | rfl | (rename_i h h'; first | exact absurd h h' | exact absurd h' h)

theorem filtPushOp_of_stim (a : Axis) (r : Sample) (s : State) (ws : List Stimulus) :
    filtPushOp a r { s with stim := ws } = { filtPushOp a r s with stim := ws } := by cases a <;> rfl

theorem filtMeanOp_of_stim (a : Axis) (s : State) (ws : List Stimulus) :
    filtMeanOp a { s with stim := ws } = { filtMeanOp a s with stim := ws } := by cases a <;> rfl

theorem commit_of_stim (s : State) (ws : List Stimulus) :
    dropWires (commitOp (classifySample { s with stim := ws })) =
      { dropWires (commitOp (classifySample s)) with stim := ws } := rfl

/-- A SAMPLE does not look at the stream. -/
theorem sampleOp_of_stim (rx ry rz : Sample) (s : State) (ws : List Stimulus) :
    sampleOp rx ry rz { s with stim := ws } = { sampleOp rx ry rz s with stim := ws } := by
  simp only [sampleOp, filterSample, filtPushOp_of_stim, filtMeanOp_of_stim, commit_of_stim]

/-- A step on an empty stream (log 2). -/
theorem step_of_empty {s : State} (hs : s.stim = []) : step s = .next s := by
  simp only [step, takeWord_nil hs]; rfl

/-- The fetch word is the one the next step runs. -/
theorem step_withFetchWord (s : State) (n w : Nat) :
    step (s.withFetchWord n w) =
      match decode (BitVec.ofNat 56 (w % 2 ^ n)) with
      | .ok i => exec i s
      | .error e => .refused (refusalOf e) := rfl

end Sys2Proof.Machine
end

