-- ==== Sys2Proof/Laws/Step.lean ====
section
/-! SUPPORT. Everything a step can do, said once (45_system_ops.md R160): RESET, or a tick if the word has one and then a
sample if the word offers one that is accepted. -/

namespace Sys2Proof.Machine

open Sys2Proof.Safety

/-- The tick part of a word's operation. -/
def tickPart (w : Stimulus) (s : State) : State := if givesTick w then tickOp s else s

/-- What the operation of a legal word can leave: the bits of the word decide (R160). -/
theorem exec_decode_cases {w : Stimulus} {i : Instr} {s t : State} (hd : decode w = .ok i) (he : exec i s = .next t) :
    legal w = true ∧
    ((givesReset w = true ∧ t = resetOp s) ∨
     (givesReset w = false ∧ givesSample w = true ∧ ∃ rx ry rz, t = sampleOp rx ry rz (tickPart w s)) ∨
     (givesReset w = false ∧ givesSample w = false ∧ t = tickPart w s)) := by
  have hl : legal w = !(Fields.ofWord w).res := rfl
  have hr : givesReset w = (!(Fields.ofWord w).res && (Fields.ofWord w).rst) := rfl
  have ht : givesTick w = (!(Fields.ofWord w).res && !(Fields.ofWord w).rst && (Fields.ofWord w).tick) := rfl
  have hs : givesSample w = (!(Fields.ofWord w).res && !(Fields.ofWord w).rst && (Fields.ofWord w).smp &&
    (!(Fields.ofWord w).raw || newDataAccepts (Fields.ofWord w).nd)) := rfl
  rw [decode] at hd
  rw [tickPart, hl, hr, ht, hs]
  clear hl hr ht hs
  generalize Fields.ofWord w = f at *
  obtain ⟨b55, nd, b51, b50, b49, b48, _, _, _, _, _, _⟩ := f
  simp only [Fields.operation] at hd
  dsimp only
  cases b55
  case true => cases hd
  simp only [Bool.false_eq_true, if_false, Except.ok.injEq] at hd
  cases b50
  case true =>
    subst hd
    simp only [if_true, exec, execReset, Host.Outcome.next.injEq] at he
    exact ⟨rfl, .inl ⟨rfl, he.symm⟩⟩
  have hn : newDataAccepts nd = decide (nd = 0b111) := by
    simp only [newDataAccepts, BEq.beq]
  refine ⟨rfl, .inr ?_⟩
  cases b48 <;> cases b49 <;> cases b51 <;>
    simp only [Bool.false_eq_true, if_false, if_true] at hd <;> subst hd <;>
    simp only [exec, execIdle, idleOp, execTick, execSample, execTickSample, execSampler, execTickSampler,
      sampleRawOp_eq, Host.Outcome.next.injEq] at he <;> subst he <;>
    simp only [Bool.not_false, Bool.not_true, Bool.true_and, Bool.and_true, Bool.and_false, Bool.false_and, Bool.false_or,
      Bool.true_or, Bool.false_eq_true, if_true, if_false, true_and, false_and, false_or, or_false, and_self,
      Bool.true_eq_false, hn, decide_eq_true_eq, decide_eq_false_iff_not]
  all_goals first
    | exact ⟨_, _, _, trivial⟩
    | exact ⟨_, _, _, rfl⟩
    | (split_ifs with h
       · exact .inl ⟨h, _, _, _, rfl⟩
       · exact .inr ⟨h, rfl⟩)

/-- Everything a step can do. -/
theorem step_cases {s t : State} (h : step s = .next t) :
    ∃ (w : Stimulus) (ws : List Stimulus), takeWord s = (w, { s with stim := ws }) ∧ legal w = true ∧
    ((givesReset w = true ∧ t = resetOp { s with stim := ws }) ∨
     (givesReset w = false ∧ givesSample w = true ∧
        ∃ rx ry rz, t = sampleOp rx ry rz (tickPart w { s with stim := ws })) ∨
     (givesReset w = false ∧ givesSample w = false ∧ t = tickPart w { s with stim := ws })) := by
  obtain ⟨i, hd, he⟩ := step_next_cases h
  obtain ⟨ws, hs⟩ := takeWord_state s
  rw [hs] at he
  obtain ⟨hl, hc⟩ := exec_decode_cases hd he
  exact ⟨(takeWord s).1, ws, by rw [← hs], hl, hc⟩

/-- A property that RESET establishes and that a TICK and a SAMPLE keep, whatever the stream, is kept by every step. -/
theorem step_keeps {P : State → Prop} (hstim : ∀ s ws, P s → P { s with stim := ws })
    (hreset : ∀ s, P s → P (resetOp s)) (htick : ∀ s, P s → P (tickOp s))
    (hsample : ∀ s rx ry rz, P s → P (sampleOp rx ry rz s)) {s t : State} (hs : P s) (h : step s = .next t) : P t := by
  obtain ⟨w, ws, -, -, hc⟩ := step_cases h
  have h0 := hstim s ws hs
  have h1 : P (tickPart w { s with stim := ws }) := by
    unfold tickPart; split_ifs
    · exact htick _ h0
    · exact h0
  rcases hc with ⟨-, rfl⟩ | ⟨-, -, rx, ry, rz, rfl⟩ | ⟨-, -, rfl⟩
  · exact hreset _ h0
  · exact hsample _ _ _ _ h1
  · exact h1

end Sys2Proof.Machine
end

