-- ==== Sys2Proof/Machine/Platform.lean ====
section
/-! DEFINITION. What the spec fixes about the accelerometer around the block (10_state.md R31, 30_encoding.md R78, R80,
40_sensor_unpack.md R92). None of it is state of the block; the bus and the polling loop are out of scope (00_scope.md
R4). The block meets them as the stimulus word that one polling cycle presents (log 15). -/

namespace Sys2Proof.Machine

/-- The sensor registers that the surrounding software uses (R31). -/
inductive SensorReg where
  | status | xHigh | xLow | yHigh | yLow | zHigh | zLow | control
  deriving DecidableEq, Repr

/-- The register offsets of R31. -/
def SensorReg.offset : SensorReg → Byte
  | .status => 0x00
  | .xHigh => 0x01
  | .xLow => 0x02
  | .yHigh => 0x03
  | .yLow => 0x04
  | .zHigh => 0x05
  | .zLow => 0x06
  | .control => 0x2a

/-- The one write at startup, "to activate continuous sampling" (R80, R202). -/
def activationWrite : SensorReg × Byte := (.control, 0x01)

/-- The six registers of the data burst, in bus order (R31, R73, R92). -/
def burstOrder : List SensorReg := [.xHigh, .xLow, .yHigh, .yLow, .zHigh, .zLow]

/-- The new-data flags: bits 2:0 of the status register; bits 7:3 "cannot influence the result" (R78, R91). -/
def ndOfStatus (status : Byte) : NdFlags := status.extractLsb' 0 3

/-- The operation that one polling cycle presents: the status register as read, and the burst (R73, R92). -/
def pollCycle (status : Byte) (xHigh xLow yHigh yLow zHigh zLow : Byte) : Instr :=
  .sampler (ndOfStatus status) xHigh xLow yHigh yLow zHigh zLow

end Sys2Proof.Machine
end

