-- ==== Sys2Proof/Tests/Slice0.lean ====
section
/-! SUPPORT. The model's own tests. Expected values come from spec/95_test_vectors.md or the rules' worked examples, as
each comment says; then a witness for every statement of the obligations that has hypotheses. -/

namespace Sys2Proof.Tests

open Sys2Proof.Machine Sys2Proof.Safety

/-! Helpers. -/

/-- A lane whose slots and mean all hold one value. -/
def laneOf (v : Sample) : Lane := { buf := Vector.replicate 16 v, cur := 0, sm := v }

/-- The reset state with constant lanes, as after 16 equal samples. -/
def held (x y z : Sample) : State := { State.reset with x := laneOf x, y := laneOf y, z := laneOf z }

/-- The reset state with the scheduler's registers given. -/
def timer (cnt thrA thrB : Count) (led out : BitVec 5) : State :=
  { State.reset with cnt := cnt, thrA := thrA, thrB := thrB, led := Leds.ofBits led, out := Leds.ofBits out }

/-- A view of the next state, if there is one. -/
def view {α : Type} (f : State → α) (o : Host.Outcome State Fault Refusal) : Option α :=
  match o with
  | .next t => some (f t)
  | .fault _ => none
  | .refused _ => none

/-- The committed triple. -/
def triple (s : State) : BitVec 5 × Int × Int := (s.led.toBits, s.vint.toInt, s.hint.toInt)

/-- The scheduler's registers and LedState. -/
def pwm (s : State) : Nat × Nat × Nat × BitVec 5 × BitVec 5 :=
  (s.cnt.toNat, s.thrA.toNat, s.thrB.toNat, s.led.toBits, s.out.toBits)

/-- The three means. -/
def means (s : State) : Int × Int × Int := (s.x.sm.toInt, s.y.sm.toInt, s.z.sm.toInt)

/-! WellFormed refuses every sub-operation and event (R76), and accepts every operation (R74). -/

theorem test_wellFormed_refuses_unpack : (Instr.unpack .x 0x03 0xC0).wellFormed = false := by decide
theorem test_wellFormed_refuses_newdata : (Instr.newdata 7).wellFormed = false := by decide
theorem test_wellFormed_refuses_filtPush : (Instr.filtPush .y 5).wellFormed = false := by decide
theorem test_wellFormed_refuses_filtMean : (Instr.filtMean .z).wellFormed = false := by decide
theorem test_wellFormed_refuses_clsAbs : Instr.clsAbs.wellFormed = false := by decide
theorem test_wellFormed_refuses_clsRemap : Instr.clsRemap.wellFormed = false := by decide
theorem test_wellFormed_refuses_clsThresh : Instr.clsThresh.wellFormed = false := by decide
theorem test_wellFormed_refuses_clsIntens : Instr.clsIntens.wellFormed = false := by decide
theorem test_wellFormed_refuses_commit : Instr.commit.wellFormed = false := by decide
theorem test_wellFormed_refuses_pwmPeriod : Instr.pwmPeriod.wellFormed = false := by decide
theorem test_wellFormed_refuses_pwmCmpA : Instr.pwmCmpA.wellFormed = false := by decide
theorem test_wellFormed_refuses_pwmCmpB : Instr.pwmCmpB.wellFormed = false := by decide
theorem test_wellFormed_refuses_portMap : Instr.portMap.wellFormed = false := by decide
theorem test_wellFormed_accepts_sampler : (Instr.sampler 3 0 0 0 0 0 0).wellFormed = true := by decide

/-! Decoding: the words of 95_test_vectors.md section 2.6. A sub-operation has no word (R76). -/

theorem test_decode_idle : decode 0x00000000000000 = .ok .idle ∧ decode 0x70FFFFFFFFFFFF = .ok .idle ∧
    decode 0x08000000000000 = .ok .idle := by decide
theorem test_decode_tick : decode 0x02000000000000 = .ok .tick ∧ decode 0x0A123456789ABC = .ok .tick := by decide
theorem test_decode_reset : decode 0x04000000000000 = .ok .reset ∧ decode 0x07000F000000FA = .ok .reset ∧
    decode 0x7F000000000000 = .ok .reset := by decide
theorem test_decode_sample : decode 0x01000F000000FA = .ok (.sample 15 0 250) ∧
    decode 0x71000F000000FA = .ok (.sample 15 0 250) ∧ decode 0x01FF10000C003C = .ok (.sample (-240) 12 60) := by decide
theorem test_decode_tickSample : decode 0x03FFF1000000FA = .ok (.tickSample (-15) 0 250) := by decide
theorem test_decode_sampler : decode 0x7903C000003E80 = .ok (.sampler 7 0x03 0xC0 0 0 0x3E 0x80) ∧
    decode 0x6903C000003E80 = .ok (.sampler 6 0x03 0xC0 0 0 0x3E 0x80) ∧
    decode 0x09000000000000 = .ok (.sampler 0 0 0 0 0 0 0) := by decide
theorem test_decode_tickSampler : decode 0x7B03C000003E80 = .ok (.tickSampler 7 0x03 0xC0 0 0 0x3E 0x80) ∧
    decode 0x0B03C000003E80 = .ok (.tickSampler 0 0x03 0xC0 0 0 0x3E 0x80) := by decide
theorem test_decode_reserved : decode 0x80000000000000 = .error .reservedEv7 ∧
    decode 0xFF000000000000 = .error .reservedEv7 := by decide

/-- R74 bit by bit, for a word written in binary: `0nnn1011`, then the six bytes. -/
theorem test_decode_bits : decode 0b0101_1011_00000011_11000000_00000001_00000010_00111110_10000000 =
    .ok (.tickSampler 0b101 0x03 0xC0 0x01 0x02 0x3E 0x80) := by decide

/-- R70: no shorter and no longer form. -/
theorem test_decodeBytes : decodeBytes [0x01, 0x00, 0x0F, 0x00, 0x00, 0x00, 0xFA] = .ok (.sample 15 0 250) ∧
    decodeBytes [0x01, 0x00, 0x0F] = .error .wrongLength ∧
    decodeBytes [0, 0, 0, 0, 0, 0, 0, 0] = .error .wrongLength ∧ decodeBytes [] = .error .wrongLength := by decide

/-- R74's canonical words. -/
theorem test_encode : encode .reset = some 0x04000000000000 ∧ encode (.tickSample (-15) 0 250) = some 0x03FFF1000000FA ∧
    encode (.sampler 7 0x03 0xC0 0 0 0x3E 0x80) = some 0x7903C000003E80 ∧ encode .commit = none := by decide

/-- 2.6: the two words of the same sample; the canonical one has every unexamined bit 0 (R74, R75 (e)). -/
theorem test_encode_clears_unexamined : encode (.sampler 7 0x03 0xFF 0x00 0x3F 0x3E 0xBF) = some 0x7903C000003E80 ∧
    encode (.tickSampler 7 0x03 0xFF 0x00 0x3F 0x3E 0xBF) = some 0x7B03C000003E80 := by decide

theorem test_decodeTableWord : decodeTableWord 56 0x02000000000000 = some .tick ∧
    decodeTableWord 56 0x80000000000000 = none := by decide

/-! RESET and IDLE. -/

/-- 2.7, R36: whatever was there, every register is 0. -/
theorem test_reset : view (fun t => (triple t, means t, memRead t .z 7, t.y.cur))
    (exec .reset { held 15 (-4) 250 with vint := -15, led := Leds.ofBits 0b01000 }) =
    some ((0, 0, 0), (0, 0, 0), 0, 0) ∧
    view pwm (exec .reset (timer 77 15 30 0b01001 0b11000)) = some (0, 0, 0, 0, 0) := by decide

/-- R161: IDLE is not a TICK. -/
theorem test_idle : view pwm (exec .idle (timer 99 15 0 0b01000 0b01000)) = some (99, 15, 0, 0b01000, 0b01000) := by decide

/-! TICK and its events: the single events of 95_test_vectors.md section 2.4. -/

theorem test_tick_period :
    view pwm (exec .tick { timer 99 0 0 0b00101 0b00000 with vint := 30, hint := 70 }) =
      some (0, 30, 70, 0b00101, 0b00101) := by decide
theorem test_tick_compare_both : view pwm (exec .tick (timer 24 25 25 0b00101 0b00101)) =
    some (25, 25, 25, 0b00000, 0b00000) := by decide
theorem test_pwmPeriod_center_and_dim :
    view pwm (exec .pwmPeriod { timer 0 0 0 0b10000 0b10000 with vint := -5, hint := -3 }) =
      some (0, 5, 3, 0b11010, 0b11010) := by decide
theorem test_pwmPeriod_copy_turns_off :
    view pwm (exec .pwmPeriod { timer 0 100 0 0b01000 0b00100 with vint := -50 }) =
      some (0, 50, 0, 0b01000, 0b01000) := by decide
theorem test_pwmCmpA : view pwm (exec .pwmCmpA (timer 30 30 70 0b00101 0b00101)) =
    some (30, 30, 70, 0b00001, 0b00001) := by decide
theorem test_pwmCmpB : view pwm (exec .pwmCmpB (timer 70 30 70 0b01010 0b00001)) =
    some (70, 30, 70, 0b01000, 0b00000) := by decide

/-! PORTMAP: 95_test_vectors.md section 2.5, on the placeholder parameters. -/

theorem test_portMap_high :
    portAMap PortParams.defaults (Leds.ofBits 0b01010) (0xF0 : BitVec 8) = 0xF4 ∧
    portBMap PortParams.defaults (Leds.ofBits 0b01010) (0x0F : BitVec 8) = 0x8F ∧
    portAMap PortParams.defaults (Leds.ofBits 0b00000) (0xFF : BitVec 8) = 0xF8 ∧
    portBMap PortParams.defaults (Leds.ofBits 0b00000) (0xFF : BitVec 8) = 0x3F ∧
    portAMap PortParams.defaults (Leds.ofBits 0b11111) (0x00 : BitVec 8) = 0x07 ∧
    portBMap PortParams.defaults (Leds.ofBits 0b11111) (0x00 : BitVec 8) = 0xC0 := by decide
theorem test_portMap_low :
    portAMap { PortParams.defaults with ledOnLevel := false } (Leds.ofBits 0b01010) (0xF0 : BitVec 8) = 0xF3 ∧
    portBMap { PortParams.defaults with ledOnLevel := false } (Leds.ofBits 0b01010) (0x0F : BitVec 8) = 0x4F := by decide

/-! UNPACK and NEWDATA: 95_test_vectors.md sections S1 and 2.1. -/

theorem test_unpack : (unpackSample 0x7F 0xC0).toInt = 511 ∧ (unpackSample 0x80 0x00).toInt = -512 ∧
    (unpackSample 0xFF 0xC0).toInt = -1 ∧ (unpackSample 0x00 0x40).toInt = 1 ∧ (unpackSample 0x00 0x3F).toInt = 0 ∧
    (unpackSample 0x80 0x3F).toInt = -512 ∧ (unpackSample 0xC0 0x00).toInt = -256 ∧
    (unpackSample 0xFC 0x40).toInt = -15 ∧ (unpackSample 0x3E 0x80).toInt = 250 := by decide
theorem test_unpack_exec : view (fun t => (t.wires.rawX, t.wires.rawY)) (exec (.unpack .y 0xC4 0x00) State.reset) =
    some (0, -240) := by decide
theorem test_newdata : view (fun t => t.wires.accept) (exec (.newdata 7) State.reset) = some true ∧
    view (fun t => t.wires.accept) (exec (.newdata 6) State.reset) = some false := by decide

/-! FILT.PUSH and FILT.MEAN: 95_test_vectors.md section 2.2. -/

/-- The cursor wraps from 15 to 0, and the slot written is the one it named before. -/
theorem test_filtPush : view (fun t => (memRead t .x 15, memRead t .x 0, t.x.cur, t.y.cur))
    (exec (.filtPush .x 160) { State.reset with x := { Lane.reset with cur := 15 } }) = some (160, 0, 0, 0) := by decide

/-- Truncation toward zero, not floor. -/
theorem test_tdiv : tdiv (-15) 16 = 0 ∧ tdiv (-16) 16 = -1 ∧ tdiv (-17) 16 = -1 ∧ tdiv (-31) 16 = -1 ∧
    tdiv (-32) 16 = -2 ∧ tdiv 31 16 = 1 ∧ tdiv 420 16 = 26 := by decide

/-- S2: sixteen times -32768 needs the 20-bit sum. -/
theorem test_filtMean : view means (exec (.filtMean .x) { held (-32768) 32767 0 with x := { laneOf (-32768) with sm := 0 } }) =
    some (-32768, 32767, 0) := by decide

/-! The classifier: 95_test_vectors.md section 2.3. -/

/-- The classifier's results in the table's form. -/
def cls (x y z : Int) : BitVec 5 × Int × Int :=
  let r := classify (BitVec.ofInt 16 x) (BitVec.ofInt 16 y) (BitVec.ofInt 16 z)
  (r.1.toBits, r.2.1.toInt, r.2.2.toInt)

theorem test_classify_walls : cls 300 10 50 = (0b00100, 50, 0) ∧ cls (-300) 10 50 = (0b01000, -50, 0) ∧
    cls 10 300 (-40) = (0b00001, 0, 40) ∧ cls 10 (-300) (-40) = (0b00010, 0, -40) ∧ cls 20 0 0 = (0b10000, 0, 0) ∧
    cls 300 200 50 = (0b00100, 50, 0) ∧ cls (-240) 12 60 = (0b01000, -60, 0) := by decide
theorem test_classify_ties : cls 200 200 50 = (0b01001, -100, 100) ∧ cls 100 0 100 = (0b01000, -100, 0) ∧
    cls 0 100 100 = (0b00001, 0, 100) ∧ cls 0 0 0 = (0b10000, 0, 0) := by decide
theorem test_classify_boundaries : cls 10 0 250 = (0b10000, -10, 0) ∧ cls 11 0 250 = (0b01000, -11, 0) ∧
    cls 0 (-10) 250 = (0b10000, 0, -10) ∧ cls 0 (-11) 250 = (0b00010, 0, -11) ∧ cls 101 0 1000 = (0b01000, -100, 0) ∧
    cls (-150) 0 1000 = (0b00100, 100, 0) := by decide
theorem test_classify_extremes : cls (-32768) 0 0 = (0b10000, 0, 0) ∧ cls 32767 0 (-32768) = (0b01000, -100, 0) ∧
    cls (-32768) (-32768) (-32768) = (0b00110, 100, -100) ∧ cls (-32768) 32767 0 = (0b10000, 0, 0) := by decide

/-- R110, R111, R113, R114: the worked example `(-240, 12, 60)`, one sub-operation at a time. -/
theorem test_clsAbs : view (fun t => (t.wires.ax, t.wires.ay, t.wires.az)) (exec .clsAbs (held (-240) 12 60)) =
    some (240, 12, 60) := by decide
theorem test_clsRemap : view (fun t => (t.wires.remX, t.wires.remY))
    (exec .clsRemap { held (-240) 12 60 with wires := { Wires.idle with ax := 240, ay := 12, az := 60 } }) =
    some (60, 0) := by decide
theorem test_clsThresh : view (fun t => t.wires.cand.toBits)
    (exec .clsThresh { State.reset with wires := { Wires.idle with remX := 15, remY := -15 } }) = some 0b01010 := by decide
theorem test_clsIntens : view (fun t => (t.wires.candV.toInt, t.wires.candH.toInt))
    (exec .clsIntens { State.reset with wires := { Wires.idle with remX := -300, remY := 150 } }) =
    some (100, 100) := by decide
/-- R167's worked example. -/
theorem test_commit : view triple (exec .commit { State.reset with
      wires := { Wires.idle with cand := Leds.ofBits 0b01000, candV := -15, candH := 0 } }) =
    some (0b01000, -15, 0) := by decide

/-! SAMPLE, SAMPLER, TICK.SAMPLE, TICK.SAMPLER. -/

/-- R162's worked example: the first sample after RESET. -/
theorem test_sample : view (fun t => (memRead t .y 0, t.z.cur, means t)) (exec (.sample 160 (-160) 256) State.reset) =
    some (-160, 1, (10, -10, 16)) ∧
    view triple (exec (.sample 160 (-160) 256) State.reset) = some (0b10000, -10, -10) := by decide
/-- 2.2: an outlier among sixteen equal values. -/
theorem test_sample_outlier : view means (exec (.sample (-20) 20 0) (held (-3) 3 0)) = some (-4, 4, 0) := by decide
/-- R163: `SAMPLER 7, 03 C0 00 00 3E 80` acts as `SAMPLE 15, 0, 250`. -/
theorem test_sampler : view (fun t => (means t, triple t)) (exec (.sampler 7 0x03 0xC0 0 0 0x3E 0x80) (held 15 0 250)) =
    some ((15, 0, 250), (0b01000, -15, 0)) := by decide
/-- R91: any other value of the flags skips, and the cursor stays. -/
theorem test_sampler_skip : view (fun t => (means t, t.x.cur)) (exec (.sampler 6 0x03 0xC0 0 0 0x3E 0x80) State.reset) =
    some ((0, 0, 0), 0) := by decide
/-- 2.4, last row: the period that begins in a TICK.SAMPLE uses the old intensity. -/
theorem test_tickSample : view pwm
      (exec (.tickSample 0 (-40) 500) { held 0 40 500 with cnt := 99, led := Leds.ofBits 0b00001, hint := 40 }) =
    some (0, 0, 40, 0b00001, 0b00001) ∧
    view (fun t => (t.y.sm.toInt, triple t))
      (exec (.tickSample 0 (-40) 500) { held 0 40 500 with cnt := 99, led := Leds.ofBits 0b00001, hint := 40 }) =
    some (35, (0b00001, 0, 35)) := by decide
/-- 2.6: with a flag clear "the TICK happens, the sample is skipped". -/
theorem test_tickSampler_skip : view (fun t => (t.cnt.toNat, t.x.cur)) (exec (.tickSampler 0 0x03 0xC0 0 0 0x3E 0x80) State.reset) =
    some (1, 0) := by decide
theorem test_tickSampler : view (fun t => (t.cnt.toNat, t.x.cur, means t)) (exec (.tickSampler 7 0x03 0xC0 0 0 0x3E 0x80) (held 15 0 250)) =
    some (1, 1, (15, 0, 250)) := by decide

/-! The step and the fetch word. -/

theorem test_step_withFetchWord : view pwm (step (State.reset.withFetchWord 56 0x02000000000000)) =
    some (1, 0, 0, 0, 0) := by decide
theorem test_step_refuses : (match step (State.reset.withFetchWord 56 0x80000000000000) with
    | .refused .reservedStimulus => true | _ => false) = true := by decide
theorem test_step_empty : view pwm (step (timer 5 0 0 0 0)) = some (5, 0, 0, 0, 0) := by decide

/-! Observer ports, the platform, the trace language. -/

/-- R29, R71: the LED lines are `out`. -/
theorem test_ledLines : ledLines (timer 5 0 0 0b00000 0b10010) = 0b10010 ∧ (observe (held 15 0 250)).smZ = 250 := by decide
/-- R78: bits 7:3 of the status register do not count. -/
theorem test_pollCycle : pollCycle 0xFF 0x03 0xC0 0 0 0x3E 0x80 = .sampler 7 0x03 0xC0 0 0 0x3E 0x80 ∧
    pollCycle 0xF5 0x03 0xC0 0 0 0x3E 0x80 = .sampler 5 0x03 0xC0 0 0 0x3E 0x80 := by decide
/-- P2's second line, with its comment. -/
theorem test_parseLine : parseLine ['S', 'A', 'M', 'P', 'L', 'E', ' ', '1', '6', '0', ',', ' ', '-', '1', '6', '0', ',',
      ' ', '2', '5', '6', ' ', ';', ' ', 'x'] = .ok (some (.sample 160 (-160) 256)) ∧
    (TraceLine.sample 160 (-160) 256).assemble = some [0x0100A0FF600100] := by decide
theorem test_parseLine_rejects : parseLine ['S', 'A', 'M', 'P', 'L', 'E', 'S', ' ', '2', ',', '0', ',', '0', ',',
      '4', '0', '0', '0', '0'] = .error .outOfRange ∧ parseLine ['T', 'O', 'C', 'K'] = .error .unknownName ∧
    parseLine ['T', 'I', 'C', 'K', 'S', ' ', '0', 'x', '1', 'F'] = .ok (some (.ticks 31)) := by decide
theorem test_pseudo : TraceLine.skip.assemble = some [0x09000000000000] ∧
    (TraceLine.samples 2 15 0 250).assemble = some [0x01000F000000FA, 0x01000F000000FA] ∧
    (TraceLine.ticks 0).assemble = some [] := by decide
/-- R81: an unexamined field that is not 0 is shown. -/
theorem test_disassemble : disassemble 0x0A123456789ABC = .ok (.tick, some 0x08123456789ABC) ∧
    disassemble 0x7903FF003F3EBF = .ok (.sampler 7 0x03 0xC0 0 0 0x3E 0x80, some 0x00003F003F003F) := by decide

/-! Witnesses: for each statement with hypotheses, a concrete state and operands that meet all of them. -/

/-- A state whose stream offers one word. -/
def offered (w : Stimulus) : State := offerWord State.reset w

theorem witness_TickRaises_period : ∃ (s : State) (c : Count), c.toNat = (s.cnt.toNat + 1) % 100 ∧ c.toNat = 0 :=
  ⟨timer 99 0 100 0 0, 0, by decide⟩
theorem witness_TickRaises_compareA : ∃ (s : State) (c : Count), c.toNat = (s.cnt.toNat + 1) % 100 ∧ c.toNat ≠ 0 ∧
    c = s.thrA ∧ c ≠ s.thrB := ⟨timer 98 99 100 0 0, 99, by decide⟩
theorem witness_TickRaises_compareB : ∃ (s : State) (c : Count), c.toNat = (s.cnt.toNat + 1) % 100 ∧ c.toNat ≠ 0 ∧
    c ≠ s.thrA ∧ c = s.thrB := ⟨timer 0 0 1 0 0, 1, by decide⟩
theorem witness_TickRaises_both : ∃ (s : State) (c : Count), c.toNat = (s.cnt.toNat + 1) % 100 ∧ c.toNat ≠ 0 ∧
    c = s.thrA ∧ c = s.thrB := ⟨timer 0 1 1 0 0, 1, by decide⟩
theorem witness_TickRaises_none : ∃ (s : State) (c : Count), c.toNat = (s.cnt.toNat + 1) % 100 ∧ c.toNat ≠ 0 ∧
    c ≠ s.thrA ∧ c ≠ s.thrB := ⟨timer 98 0 100 0 0, 99, by decide⟩
theorem witness_TickCompletes_between_periods : ∃ s t : State, exec .tick s = .next t ∧ t.cnt.toNat ≠ 0 ∧
    t.out.up = true := ⟨timer 0 2 0 0b01000 0b01000, _, rfl, by decide⟩
theorem witness_PeriodStart_magnitudes : ∃ s : State, s.vint.toInt ≠ -128 ∧ s.hint.toInt ≠ -128 ∧ s.vint.toInt < 0 :=
  ⟨{ State.reset with vint := -127, hint := 127 }, by decide⟩
theorem witness_PeriodStartOnMinus128 : ∃ s : State, s.vint.toInt = -128 ∧ s.hint.toInt ≠ -128 :=
  ⟨{ State.reset with vint := -128, hint := 70 }, by decide⟩
theorem witness_PeriodStartOnMinus128_horizontal : ∃ s : State, s.vint.toInt ≠ -128 ∧ s.hint.toInt = -128 :=
  ⟨{ State.reset with vint := 127, hint := -128 }, by decide⟩
theorem witness_ThresholdsAtTheEnds : ∃ s t : State, exec .tick s = .next t ∧ t.cnt.toNat ≠ 0 ∧ s.thrA.toNat = 0 ∧
    100 ≤ s.thrB.toNat := ⟨timer 98 0 100 0b01001 0b01001, _, rfl, by decide⟩
theorem witness_ThresholdsAtTheEnds_swapped : ∃ s t : State, exec .tick s = .next t ∧ t.cnt.toNat ≠ 0 ∧
    100 ≤ s.thrA.toNat ∧ s.thrB.toNat = 0 := ⟨timer 0 127 0 0b01001 0b01001, _, rfl, by decide⟩
theorem witness_PortMapping : PortParams.defaults.valid = true ∧
    ({ PortParams.defaults with portW := 16, pbDown := 8, pbLeft := 15, ledOnLevel := false } : PortParams).valid = true := by
  decide
theorem witness_SampleRuns_remapX : ∃ s t : State, exec (.sample 300 10 50) s = .next t ∧
    |t.z.sm.toInt| < |t.x.sm.toInt| ∧ |t.y.sm.toInt| < |t.x.sm.toInt| := ⟨held 300 10 50, _, rfl, by decide⟩
theorem witness_SampleRuns_remapY : ∃ s t : State, exec (.sample 10 300 40) s = .next t ∧
    |t.x.sm.toInt| < |t.y.sm.toInt| ∧ |t.z.sm.toInt| < |t.y.sm.toInt| := ⟨held 10 300 40, _, rfl, by decide⟩
theorem witness_SampleRuns_flat : ∃ s t : State, exec (.sample 200 200 50) s = .next t ∧
    |t.x.sm.toInt| = |t.y.sm.toInt| := ⟨held 200 200 50, _, rfl, by decide⟩
theorem witness_CommittedLedState : ∃ s t : State, exec (.sample 15 (-15) 250) s = .next t ∧
    t.led.toBits = 0b01010 := ⟨held 15 (-15) 250, _, rfl, by decide⟩
theorem witness_Sampler_accepts : (7 : NdFlags) = 0b111 := by decide
theorem witness_Sampler_skips : (6 : NdFlags) ≠ 0b111 ∧ (3 : NdFlags) ≠ 0b111 := by decide
theorem witness_TickSamplePeriod : ∃ s u : State, s.cnt.toNat = 99 ∧ s.vint.toInt ≠ -128 ∧ s.hint.toInt ≠ -128 ∧
    exec (.tickSample 0 (-40) 500) s = .next u ∧ u.hint ≠ s.hint :=
  ⟨{ held 0 40 500 with cnt := 99, hint := 40 }, _, by decide, by decide, by decide, rfl, by decide⟩
theorem witness_FiltPush_other_slot : ∃ (s : State) (b : Axis) (i : Slot), ¬(b = .x ∧ i = slotOf (s.lane .x).cur) :=
  ⟨State.reset, .x, 15, by decide⟩
theorem witness_Unpack_ends : (0x7F : Byte).toNat < 128 ∧ ¬(0x80 : Byte).toNat < 128 := by decide
theorem witness_Remap_x : ∃ s : State, s.wires.ax > s.wires.az ∧ s.wires.ax > s.wires.ay :=
  ⟨{ held 2 1 1 with wires := { Wires.idle with ax := 2, ay := 1, az := 1 } }, by decide⟩
theorem witness_Remap_y : ∃ s : State, s.wires.ay > s.wires.ax ∧ s.wires.ay > s.wires.az :=
  ⟨{ held 1 2 1 with wires := { Wires.idle with ax := 1, ay := 2, az := 1 } }, by decide⟩
theorem witness_Remap_flat : ∃ s : State, s.wires.az ≥ s.wires.ax ∧ s.wires.az ≥ s.wires.ay :=
  ⟨{ held 1 0 1 with wires := { Wires.idle with ax := 1, ay := 0, az := 1 } }, by decide⟩
theorem witness_Remap_tie : ∃ s : State, s.wires.ax = s.wires.ay ∧ s.wires.ax > s.wires.az :=
  ⟨{ held 2 2 1 with wires := { Wires.idle with ax := 2, ay := 2, az := 1 } }, by decide⟩

theorem witness_DecodeMap_reserved : (0x80000000000000 : Stimulus).getLsbD 55 = true := by decide
theorem witness_DecodeMap_reset : (0x04000000000000 : Stimulus).getLsbD 55 = false ∧
    (0x04000000000000 : Stimulus).getLsbD 50 = true := by decide
theorem witness_DecodeMap_idle : (0x78FFFFFFFFFFFF : Stimulus).getLsbD 55 = false ∧
    (0x78FFFFFFFFFFFF : Stimulus).getLsbD 50 = false ∧ (0x78FFFFFFFFFFFF : Stimulus).getLsbD 49 = false ∧
    (0x78FFFFFFFFFFFF : Stimulus).getLsbD 48 = false := by decide
theorem witness_DecodeMap_tick : (0x7AFFFFFFFFFFFF : Stimulus).getLsbD 55 = false ∧
    (0x7AFFFFFFFFFFFF : Stimulus).getLsbD 50 = false ∧ (0x7AFFFFFFFFFFFF : Stimulus).getLsbD 49 = true ∧
    (0x7AFFFFFFFFFFFF : Stimulus).getLsbD 48 = false := by decide
theorem witness_DecodeMap_sample : (0x73FFF1000000FA : Stimulus).getLsbD 55 = false ∧
    (0x73FFF1000000FA : Stimulus).getLsbD 50 = false ∧ (0x73FFF1000000FA : Stimulus).getLsbD 48 = true ∧
    (0x73FFF1000000FA : Stimulus).getLsbD 51 = false := by decide
theorem witness_DecodeMap_burst : (0x7903C000003E80 : Stimulus).getLsbD 55 = false ∧
    (0x7903C000003E80 : Stimulus).getLsbD 50 = false ∧ (0x7903C000003E80 : Stimulus).getLsbD 48 = true ∧
    (0x7903C000003E80 : Stimulus).getLsbD 51 = true := by decide
theorem witness_DecodeMap_canonical : encode .tick = some 0x02000000000000 ∧
    encode (.sample 15 0 250) = some 0x01000F000000FA := by decide
theorem witness_DecodeOfEncode : (Instr.tickSampler 5 1 0x40 3 0xC0 5 0x80).wellFormed = true ∧
    (Instr.tickSampler 5 1 0x40 3 0xC0 5 0x80).canonical = .tickSampler 5 1 0x40 3 0xC0 5 0x80 ∧
    (Instr.sampler 7 0x03 0xFF 0 0x3F 0x3E 0xBF).canonical = .sampler 7 0x03 0xC0 0 0 0x3E 0x80 ∧
    Instr.portMap.wellFormed = false ∧ decode 0x7F000000000000 = .ok .reset := by decide
theorem witness_UnexaminedBits : decode 0x7903C000003E80 = .ok (.sampler 7 0x03 0xC0 0 0 0x3E 0x80) ∧
    ((0x7903C000003E80 : Stimulus) ^^^ 0x7903FF003F3EBF) &&&
      (Instr.sampler 7 0x03 0xC0 0 0 0x3E 0x80).examined = 0 ∧
    decode 0x07000F000000FA = .ok .reset ∧ ((0x07000F000000FA : Stimulus) ^^^ 0x7CFFFFFFFFFFFF) &&& Instr.reset.examined = 0 := by
  decide
theorem witness_AssembledTraceLines : (TraceLine.sample 32768 0 0).inRange = false ∧
    (TraceLine.sample (-32768) 32767 0).inRange = true ∧ (TraceLine.samples 16 (-32768) 32767 0).inRange = true ∧
    (TraceLine.sampler 7 255 192 0 0 62 128).inRange = true := by decide

theorem witness_StepRuns : ∃ (s : State) (w : Stimulus) (rest : List Stimulus) (i : Instr),
    s.stim = w :: rest ∧ decode w = .ok i := ⟨offered 0x02000000000000, _, _, .tick, rfl, by decide⟩
theorem witness_StepRuns_empty : ∃ s : State, s.stim = [] ∧ s.cnt.toNat = 5 := ⟨timer 5 0 0 0 0, rfl, by decide⟩
theorem witness_StepRefuses : ∃ (s : State) (w : Stimulus) (rest : List Stimulus),
    s.stim = w :: rest ∧ w.getLsbD 55 = true := ⟨offered 0xFF000000000000, _, _, rfl, by decide⟩
theorem witness_StepFollows_reset : ∃ (s : State) (w : Stimulus) (rest : List Stimulus),
    s.stim = w :: rest ∧ w.getLsbD 55 = false ∧ w.getLsbD 50 = true := ⟨offered 0x7F000000000000, _, _, rfl, by decide⟩
theorem witness_StepFollows_tick_sample : ∃ (s : State) (w : Stimulus) (rest : List Stimulus),
    s.stim = w :: rest ∧ w.getLsbD 55 = false ∧ w.getLsbD 50 = false ∧ w.getLsbD 49 = true ∧ w.getLsbD 48 = true ∧
      w.getLsbD 51 = false := ⟨offered 0x03FFF1000000FA, _, _, rfl, by decide⟩
theorem witness_StepFollows_burst : ∃ (s : State) (w : Stimulus) (rest : List Stimulus),
    s.stim = w :: rest ∧ w.getLsbD 55 = false ∧ w.getLsbD 50 = false ∧ w.getLsbD 49 = false ∧ w.getLsbD 48 = true ∧
      w.getLsbD 51 = true := ⟨offered 0x7903C000003E80, _, _, rfl, by decide⟩
theorem witness_StepFollows_nothing : ∃ (s : State) (w : Stimulus) (rest : List Stimulus),
    s.stim = w :: rest ∧ w.getLsbD 55 = false ∧ w.getLsbD 50 = false ∧ w.getLsbD 48 = false :=
  ⟨offered 0x70FFFFFFFFFFFF, _, _, rfl, by decide⟩
theorem witness_EveryOperationIsTotal : ∃ (s : State) (w : Stimulus) (rest : List Stimulus),
    s.stim = w :: rest ∧ w.getLsbD 55 = false := ⟨offered 0x0B03C000003E80, _, _, rfl, by decide⟩
theorem witness_OnlyTickAndReset : ∃ s t : State, step s = .next t ∧ givesReset (takeWord s).1 = false ∧
    givesTick (takeWord s).1 = false ∧ givesSample (takeWord s).1 = true :=
  ⟨offered 0x01000F000000FA, _, rfl, by decide⟩
theorem witness_OnlyAcceptedSamples : ∃ s t : State, step s = .next t ∧ givesReset (takeWord s).1 = false ∧
    givesSample (takeWord s).1 = false ∧ givesTick (takeWord s).1 = true :=
  ⟨offered 0x0B03C000003E80, _, rfl, by decide⟩

/-- A running state in the last step of a period, with an up tilt and one TICK to come. -/
def tilted : State :=
  { held 15 0 250 with
    cnt := 99, vint := -15, led := Leds.ofBits 0b01000, stim := [0x02000000000000, 0x02000000000000] }

theorem tilted_invariant : Invariant35 tilted :=
  ⟨by unfold Lockstep; decide, fun a => by cases a <;> decide, by unfold IntensitiesInRange; decide,
    by unfold CountsInRange; decide, by unfold LedFollowsSign; decide, by unfold PairsExclusive; decide,
    by unfold LitBeforeThreshold; decide⟩

theorem witness_StepKeepsTheInvariants : ∃ s t : State, Invariant35 s ∧ step s = .next t ∧ t.out.up = true :=
  ⟨tilted, _, tilted_invariant, rfl, by decide⟩
theorem witness_StepKeepsPortsShowingOut : ∃ s t : State, PortsShowOut s ∧ step s = .next t :=
  ⟨offered 0x02000000000000, _, (drivePorts_showOut { State.reset with portOps := 0 } :), rfl⟩
theorem witness_StepLeavesNoValue : ∃ s t : State, s.wires = Wires.idle ∧ step s = .next t ∧ t.x.sm = 10 :=
  ⟨offered 0x0100A0FF600100, _, rfl, rfl, by decide⟩
theorem witness_StartupMean : ([(16, 15, -17), (0, 0, 1)] : List (Sample × Sample × Sample)).length ≤ 16 := by decide

/-- Two states with the same x slots in another order. -/
theorem witness_MeanDependsOnTheMultisetOnly : ∃ (s s' : State) (p : Equiv.Perm Slot),
    (∀ i : Slot, memRead s' .x i = memRead s .x (p i)) ∧ memRead s .x 0 ≠ memRead s' .x 0 :=
  ⟨memWrite State.reset .x 0 5, memWrite State.reset .x 1 5, Equiv.swap 0 1, by decide⟩
theorem witness_RawBursts : ∃ s t : State,
    (∀ (a : Axis) (i : Slot), -512 ≤ (memRead s a i).toInt ∧ (memRead s a i).toInt ≤ 511) ∧ MeansCurrent s ∧
    step s = .next t ∧ givesSample (takeWord s).1 = true ∧ (takeWord s).1.getLsbD 51 = true :=
  ⟨{ held (-512) 511 0 with stim := [0x7903C000003E80] }, _, fun a => by cases a <;> decide,
    fun a => by cases a <;> decide, rfl, by decide⟩
theorem witness_StartingCursor : ∃ s s' t t' : State,
    (∀ (a : Axis) (i : Slot), memRead s a i = 0 ∧ memRead s' a i = 0) ∧
    (∀ a : Axis, (s.lane a).sm = (s'.lane a).sm) ∧ s.x.cur ≠ s'.x.cur ∧
    runInstrs [.sample 16 0 0] s = .next t ∧ runInstrs [.sample 16 0 0] s' = .next t' :=
  ⟨State.reset, { State.reset with x := { Lane.reset with cur := 15 } }, _, _, fun a => by cases a <;> decide,
    fun a => by cases a <;> decide, by decide, rfl, rfl⟩
theorem witness_LanesShareNothing : ∃ s s' t t' : State, exec (.sample 7 1 2) s = .next t ∧
    exec (.sample 7 3 4) s' = .next t' ∧ s.x = s'.x ∧ s.y ≠ s'.y :=
  ⟨State.reset, { State.reset with y := laneOf 3 }, _, _, rfl, rfl, by decide, by decide⟩
theorem witness_CachedSum : AccIs (held 15 0 250) .z 4000 ∧ ∃ s t : State, exec .reset s = .next t :=
  ⟨by unfold AccIs; decide, held 15 0 250, _, rfl⟩
/-- A stream of TICKs runs to its end. -/
theorem ticks_run (n : Nat) : ∀ s : State, s.stim = List.replicate n 0x02000000000000 → ∃ t, runSteps n s = .next t := by
  induction n with
  | zero => exact fun s _ => ⟨s, rfl⟩
  | succ n ih =>
    intro s hs
    have hstep : step s = .next (tickOp { s with stim := List.replicate n 0x02000000000000 }) :=
      step_of_decode (i := .tick) hs (by decide)
    simpa only [runSteps, hstep] using ih _ (tickOp_stim _)

/-- The last step of a period with a given vertical intensity, and a stream of `n` TICKs for the next one. -/
def beforePeriod (vint : Intensity) (n : Nat) : State :=
  { State.reset with cnt := 99, vint := vint, stim := List.replicate n 0x02000000000000 }

theorem reset_means : MeansCurrent State.reset := fun a => by cases a <;> decide

theorem beforePeriod_invariant (n : Nat) {vint : Intensity} (h : -100 ≤ vint.toInt ∧ vint.toInt ≤ 100) :
    Invariant35 (beforePeriod vint n) where
  lockstep := by unfold Lockstep; exact ⟨rfl, rfl⟩
  means := fun a => by cases a <;> [exact reset_means .x; exact reset_means .y; exact reset_means .z]
  intensities := ⟨h.1, h.2, by simp [beforePeriod, State.reset, Regs.reset]⟩
  counts := by simp [CountsInRange, beforePeriod, State.reset, Regs.reset]
  ledSigns := ⟨nofun, nofun, nofun, nofun⟩
  pairs := ⟨nofun, nofun⟩
  litBefore := ⟨nofun, nofun⟩

/-- The duty law's hypotheses hold at every step `k <= 99` of the period, for any intensity in range: before, at and after
`k = |vint|`, and at `k = 99`. -/
theorem dutyLaw_witness (vint : Intensity) (h : -100 ≤ vint.toInt ∧ vint.toInt ≤ 100) (k : Nat) :
    ∃ s s1 t : State, Invariant35 s ∧ s.cnt.toNat = 99 ∧ s.vint = vint ∧ exec .tick s = .next s1 ∧
      runSteps k s1 = .next t ∧ noReset (s1.stim.take k) = true ∧ ticksIn (s1.stim.take k) = k := by
  have hstim : (tickOp (beforePeriod vint k)).stim = List.replicate k 0x02000000000000 := tickOp_stim _
  obtain ⟨t, ht⟩ := ticks_run k _ hstim
  have hr : givesReset 0x02000000000000#56 = false := by decide
  have hk : givesTick 0x02000000000000#56 = true := by decide
  exact ⟨beforePeriod vint k, _, t, beforePeriod_invariant k h, rfl, rfl, rfl, ht,
    by simp [beforePeriod, noReset, hr], by simp [beforePeriod, ticksIn, List.countP_replicate, hk]⟩

theorem witness_DutyLaw_at_intensity : ∃ s s1 t : State, Invariant35 s ∧ s.cnt.toNat = 99 ∧ s.vint = -15 ∧
    exec .tick s = .next s1 ∧ runSteps 15 s1 = .next t ∧ noReset (s1.stim.take 15) = true ∧
    ticksIn (s1.stim.take 15) = 15 := dutyLaw_witness (-15) (by decide) 15
theorem witness_DutyLaw_last_step : ∃ s s1 t : State, Invariant35 s ∧ s.cnt.toNat = 99 ∧ s.vint = 100 ∧
    exec .tick s = .next s1 ∧ runSteps 99 s1 = .next t ∧ noReset (s1.stim.take 99) = true ∧
    ticksIn (s1.stim.take 99) = 99 := dutyLaw_witness 100 (by decide) 99
/-- The LED is lit in step 0 of a period with intensity -1, and dark from step 1 on, where `k = |vint|`. -/
theorem test_duty_boundary : view (fun t => t.out.up) (exec .tick (beforePeriod (-1) 0)) = some true ∧
    view (fun t => t.out.up) (exec .tick (timer 0 1 0 0b01000 0b01000)) = some false := by decide

theorem witness_PeriodRelation_reset : ∃ s t : State, step s = .next t ∧ givesReset (takeWord s).1 = true :=
  ⟨offered 0x07000F000000FA, _, rfl, by decide⟩
theorem witness_PeriodRelation_start : ∃ s t : State, Invariant35 s ∧ s.cnt.toNat = 99 ∧ step s = .next t ∧
    givesTick (takeWord s).1 = true := ⟨tilted, _, tilted_invariant, by decide, rfl, by decide⟩
/-- The compare step itself, with a sample in the same word. -/
theorem witness_PeriodRelation_kept : ∃ s t : State, InPeriod (-15) 70 false s ∧ step s = .next t ∧
    givesReset (takeWord s).1 = false ∧ givesTick (takeWord s).1 = true ∧ s.cnt.toNat ≠ 99 ∧ t.cnt = s.thrA :=
  ⟨{ timer 14 15 70 0b01001 0b01001 with stim := [0x03000F000000FA] }, _,
    ⟨by decide, by decide, by decide, by decide, by decide, by decide, by decide, by decide⟩, rfl, by decide⟩
theorem witness_FirstPeriodDark : ∃ s t : State, s = { State.reset with stim := [0x03000F000000FA] } ∧
    runSteps 1 s = .next t ∧ ticksIn (([0x03000F000000FA] : List Stimulus).take 1) < 100 :=
  ⟨_, _, rfl, rfl, by decide⟩
theorem witness_WithoutSamples : ∃ s t : State, s = { State.reset with stim := [0x0B000000000000] } ∧
    runSteps 1 s = .next t ∧ (∀ w ∈ ([0x0B000000000000] : List Stimulus).take 1, givesSample w = false) ∧
    ticksIn (([0x0B000000000000] : List Stimulus).take 1) = 1 :=
  ⟨_, _, rfl, rfl, by simp [givesSample, legal, newDataAccepts], by decide⟩
theorem witness_TickIsBlind : ∃ s s' : State, SharedKept s s' ∧ SchedulerKept s s' ∧ s.x ≠ s'.x :=
  ⟨State.reset, held 15 0 250, ⟨rfl, rfl, rfl⟩, ⟨rfl, rfl, rfl, rfl⟩, by decide⟩
theorem witness_DownCounting : ∃ d : DownCount, d.Agrees ∧ CountsInRange d.st ∧ IntensitiesInRange d.st ∧
    expires d.downA = true :=
  ⟨{ st := timer 29 30 70 0b00101 0b00101, downA := 1, downB := 41 }, by unfold DownCount.Agrees; decide,
    by unfold CountsInRange; decide, by unfold IntensitiesInRange; decide, by decide⟩

end Sys2Proof.Tests
end

/-! The state: what its operations leave unchanged, and what every step keeps (10_state.md). -/

/-! ### The registers after RESET, and states with the same lanes -/

namespace Sys2Proof.Machine

open Sys2Proof.Safety

@[simp] theorem resetOp_toRegs (s : State) : (resetOp s).toRegs = Regs.reset := rfl

@[simp] theorem resetOp_lane (s : State) (a : Axis) : (resetOp s).lane a = Lane.reset := by cases a <;> rfl

@[simp] theorem lane_of_stim (s : State) (ws : List Stimulus) (a : Axis) :
    ({ s with stim := ws } : State).lane a = s.lane a := by cases a <;> rfl

/-- The reset state is what RESET leaves, with no word pending, when it is the first to drive the ports (R36, R200). -/
theorem reset_eq_resetOp : State.reset = resetOp { State.reset with portOps := 0 } := rfl

theorem resetOp_memRead (s : State) (a : Axis) (i : Slot) : memRead (resetOp s) a i = 0 := by
  simp [memRead, Lane.reset]

theorem resetOp_ringSum (s : State) (a : Axis) : ringSum (resetOp s) a = 0 := by
  simp [ringSum_eq_sum, resetOp_memRead]

theorem lanesKept_of_lane_eq {s t : State} (h : ∀ a, t.lane a = s.lane a) : LanesKept s t :=
  fun a => ⟨fun i => memRead_congr (h a) i, congrArg Lane.cur (h a), congrArg Lane.sm (h a)⟩

theorem meansCurrent_of_lane_eq {s t : State} (h : ∀ a, t.lane a = s.lane a) (hs : MeansCurrent s) :
    MeansCurrent t := fun a => by
  rw [h a, ringSum_congr fun i => memRead_congr (h a) i]
  exact hs a

/-! ### A TICK, by what it does to each register -/

/-- What the compare events due at a TICK leave of five LED bits: a pair whose threshold the advanced counter meets
is off (R130, R132, R133). -/
def afterCompares (s : State) (l : Leds) : Leds :=
  let l1 := if nextCount s.cnt = s.thrA then l.clearVertical else l
  if nextCount s.cnt = s.thrB then l1.clearHorizontal else l1

@[simp] theorem afterCompares_center (s : State) (l : Leds) : (afterCompares s l).center = l.center := by
  unfold afterCompares; split_ifs <;> rfl

@[simp] theorem afterCompares_up (s : State) (l : Leds) :
    (afterCompares s l).up = true ↔ l.up = true ∧ nextCount s.cnt ≠ s.thrA := by
  unfold afterCompares; split_ifs <;> simp_all [Leds.clearVertical, Leds.clearHorizontal]

@[simp] theorem afterCompares_down (s : State) (l : Leds) :
    (afterCompares s l).down = true ↔ l.down = true ∧ nextCount s.cnt ≠ s.thrA := by
  unfold afterCompares; split_ifs <;> simp_all [Leds.clearVertical, Leds.clearHorizontal]

@[simp] theorem afterCompares_left (s : State) (l : Leds) :
    (afterCompares s l).left = true ↔ l.left = true ∧ nextCount s.cnt ≠ s.thrB := by
  unfold afterCompares; split_ifs <;> simp_all [Leds.clearVertical, Leds.clearHorizontal]

@[simp] theorem afterCompares_right (s : State) (l : Leds) :
    (afterCompares s l).right = true ↔ l.right = true ∧ nextCount s.cnt ≠ s.thrB := by
  unfold afterCompares; split_ifs <;> simp_all [Leds.clearVertical, Leds.clearHorizontal]

theorem tickOp_of_period_start {s : State} (h : nextCount s.cnt = 0) :
    tickOp s = pwmPeriodOp { s with cnt := 0 } := by
  simp [tickOp, h]

/-- Inside a period a TICK keeps the thresholds and turns off the pairs that are due, in `led` and in `out` alike. -/
theorem tickOp_within_period {s : State} (h : nextCount s.cnt ≠ 0) :
    (tickOp s).thrA = s.thrA ∧ (tickOp s).thrB = s.thrB ∧
    (tickOp s).led = afterCompares s s.led ∧ (tickOp s).out = afterCompares s s.out := by
  rcases tickOp_cases s with ⟨h0, -⟩ | ⟨-, hA, hB, e⟩ | ⟨-, hA, hB, e⟩ | ⟨-, hA, hB, e⟩ | ⟨-, hA, hB, e⟩
  · exact absurd h0 h
  all_goals
    rw [e]
    exact ⟨rfl, rfl, by simp_all [afterCompares], by simp_all [afterCompares]⟩

theorem tickOp_led_center (s : State) : (tickOp s).led.center = s.led.center := by
  by_cases h : nextCount s.cnt = 0
  · simp [tickOp_of_period_start h]
  · obtain ⟨-, -, hled, -⟩ := tickOp_within_period h
    rw [hled, afterCompares_center]

theorem tickOp_showOut {s : State} (h : PortsShowOut s) : PortsShowOut (tickOp s) := by
  rcases tickOp_cases s with ⟨-, e⟩ | ⟨-, -, -, e⟩ | ⟨-, -, -, e⟩ | ⟨-, -, -, e⟩ | ⟨-, -, -, e⟩ <;> rw [e]
  case inr.inl => exact h
  all_goals exact drivePorts_showOut _

/-! ### A SAMPLE, by what it publishes -/

/-- A SAMPLE publishes the threshold tests and the clamped intensities of one remapped pair `x'`, `y'` (R113, R114). -/
theorem sampleOp_publishes (rx ry rz : Sample) (s : State) : ∃ x' y' : Int,
    (sampleOp rx ry rz s).led = threshLeds x' y' ∧ (sampleOp rx ry rz s).vint = vertIntensity x' ∧
    (sampleOp rx ry rz s).hint = horizIntensity y' := by
  obtain ⟨hled, hvint, hhint⟩ := sampleOp_committed rx ry rz s
  exact ⟨_, _, hled, hvint, hhint⟩

theorem vertIntensity_bounds (x' : Int) : -100 ≤ (vertIntensity x').toInt ∧ (vertIntensity x').toInt ≤ 100 := by
  rw [vertIntensity_toInt]; exact clamp_bounds (by norm_num)

theorem horizIntensity_bounds (y' : Int) : -100 ≤ (horizIntensity y').toInt ∧ (horizIntensity y').toInt ≤ 100 := by
  rw [horizIntensity_toInt]; exact clamp_bounds (by norm_num)

theorem clamp_hundred_pos_iff (a : Int) : 0 < clamp a (-100) 100 ↔ 0 < a := by
  unfold clamp; split_ifs <;> omega

theorem clamp_hundred_neg_iff (a : Int) : clamp a (-100) 100 < 0 ↔ a < 0 := by
  unfold clamp; split_ifs <;> omega

/-! ### R35: the seven invariants under each operation -/

theorem invariant35_of_stim {s : State} (ws : List Stimulus) (h : Invariant35 s) : Invariant35 { s with stim := ws } where
  lockstep := h.lockstep
  means := meansCurrent_of_lane_eq (lane_of_stim s ws) h.means
  intensities := h.intensities
  counts := h.counts
  ledSigns := h.ledSigns
  pairs := h.pairs
  litBefore := h.litBefore

theorem invariant35_resetOp (s : State) : Invariant35 (resetOp s) where
  lockstep := ⟨rfl, rfl⟩
  means := fun a => by rw [resetOp_ringSum, resetOp_lane]; rfl
  intensities := by simp [IntensitiesInRange, Regs.reset]
  counts := by simp [CountsInRange, Regs.reset]
  ledSigns := ⟨nofun, nofun, nofun, nofun⟩
  pairs := ⟨nofun, nofun⟩
  litBefore := ⟨nofun, nofun⟩

/-- The magnitude of an intensity in -100..100 is the threshold it loads. -/
theorem intensitiesInRange_thresholds {s : State} (h : IntensitiesInRange s) :
    (thresholdOf s.vint).toNat = s.vint.toInt.natAbs ∧ (thresholdOf s.hint).toNat = s.hint.toInt.natAbs := by
  obtain ⟨hv, -, hh, -⟩ := h
  exact ⟨thresholdOf_toNat (by omega), thresholdOf_toNat (by omega)⟩

/-- At a period start a lit bit agrees with the sign of its intensity, whether it stood in `led` or is set now. -/
theorem setBySign_follows_sign {s : State} (h : LedFollowsSign s) :
    ((setBySign s.vint s.hint s.led).up = true → s.vint.toInt < 0) ∧
    ((setBySign s.vint s.hint s.led).down = true → 0 < s.vint.toInt) ∧
    ((setBySign s.vint s.hint s.led).right = true → 0 < s.hint.toInt) ∧
    ((setBySign s.vint s.hint s.led).left = true → s.hint.toInt < 0) := by
  obtain ⟨hup, hdown, hright, hleft⟩ := h
  simp only [setBySign_up, setBySign_down, setBySign_right, setBySign_left, Bool.or_eq_true, decide_eq_true_eq]
  exact ⟨Or.rec hup id, Or.rec hdown id, Or.rec hright id, Or.rec hleft id⟩

/-- A period start: `out` is the new `led`, whose bits follow the signs, so no pair is lit twice, and a lit bit has a
non-zero magnitude as its threshold. -/
theorem invariant35_pwmPeriodOp {s : State} (h : Invariant35 s) : Invariant35 (pwmPeriodOp { s with cnt := 0 }) := by
  obtain ⟨hA, hB⟩ := intensitiesInRange_thresholds h.intensities
  obtain ⟨hup, hdown, hright, hleft⟩ := setBySign_follows_sign h.ledSigns
  obtain ⟨hv, hv', hh, hh'⟩ := h.intensities
  exact {
    lockstep := h.lockstep
    means := meansCurrent_of_lane_eq (fun a => by cases a <;> rfl) h.means
    intensities := h.intensities
    counts := by
      refine ⟨by simp, ?_, ?_⟩
      · rw [pwmPeriodOp_thrA, hA]; omega
      · rw [pwmPeriodOp_thrB, hB]; omega
    ledSigns := ⟨hup, hdown, hright, hleft⟩
    pairs := ⟨fun ⟨u, d⟩ => lt_asymm (hup u) (hdown d), fun ⟨l, r⟩ => lt_asymm (hleft l) (hright r)⟩
    litBefore := by
      refine ⟨fun lit => ?_, fun lit => ?_⟩
      · rw [pwmPeriodOp_thrA, hA]
        exact Int.natAbs_pos.mpr (ne_iff_lt_or_gt.mpr (lit.imp hup hdown))
      · rw [pwmPeriodOp_thrB, hB]
        exact Int.natAbs_pos.mpr (ne_iff_lt_or_gt.mpr (lit.imp hleft hright)) }

/-- A lit LED that is not due now is still before its threshold one count later. -/
theorem nextCount_lt_of_lt {c thr : Count} (hlt : c.toNat < thr.toNat)
    (hne : nextCount c ≠ thr) : (nextCount c).toNat < thr.toNat := by
  have hthr := thr.isLt
  have hne' : (nextCount c).toNat ≠ thr.toNat := fun e => hne (BitVec.eq_of_toNat_eq e)
  rw [nextCount_toNat] at *
  omega

/-- Inside a period LEDs are only turned off, so signs and pairs stay right; what is still lit was not due. -/
theorem invariant35_tickOp_within {s : State} (h0 : nextCount s.cnt ≠ 0) (h : Invariant35 s) :
    Invariant35 (tickOp s) := by
  obtain ⟨hA, hB, hled, hout⟩ := tickOp_within_period h0
  obtain ⟨hup, hdown, hright, hleft⟩ := h.ledSigns
  obtain ⟨hpairV, hpairH⟩ := h.pairs
  obtain ⟨hlitV, hlitH⟩ := h.litBefore
  obtain ⟨-, hthrA, hthrB⟩ := h.counts
  exact {
    lockstep := by simpa [Lockstep] using h.lockstep
    means := meansCurrent_of_lane_eq (tickOp_lane s) h.means
    intensities := by simpa [IntensitiesInRange] using h.intensities
    counts := by
      refine ⟨?_, hA ▸ hthrA, hB ▸ hthrB⟩
      rw [tickOp_cnt, nextCount_toNat]; omega
    ledSigns := by
      simp only [LedFollowsSign, hled, tickOp_vint, tickOp_hint, afterCompares_up, afterCompares_down,
        afterCompares_right, afterCompares_left]
      exact ⟨fun x => hup x.1, fun x => hdown x.1, fun x => hright x.1, fun x => hleft x.1⟩
    pairs := by
      simp only [PairsExclusive, hout, afterCompares_up, afterCompares_down, afterCompares_left, afterCompares_right]
      exact ⟨fun ⟨u, d⟩ => hpairV ⟨u.1, d.1⟩, fun ⟨l, r⟩ => hpairH ⟨l.1, r.1⟩⟩
    litBefore := by
      simp only [LitBeforeThreshold, hout, hA, hB, tickOp_cnt, afterCompares_up, afterCompares_down,
        afterCompares_left, afterCompares_right, ← or_and_right]
      exact ⟨fun ⟨lit, hne⟩ => nextCount_lt_of_lt (hlitV lit) hne,
        fun ⟨lit, hne⟩ => nextCount_lt_of_lt (hlitH lit) hne⟩ }

theorem invariant35_tickOp {s : State} (h : Invariant35 s) : Invariant35 (tickOp s) := by
  by_cases h0 : nextCount s.cnt = 0
  · rw [tickOp_of_period_start h0]; exact invariant35_pwmPeriodOp h
  · exact invariant35_tickOp_within h0 h

/-- A SAMPLE: the cursors advance together, the means are taken over the new windows, and the published bits and
intensities come from one remapped pair; the scheduler's registers are as they were. -/
theorem invariant35_sampleOp {s : State} (rx ry rz : Sample) (h : Invariant35 s) :
    Invariant35 (sampleOp rx ry rz s) := by
  obtain ⟨x', y', hled, hvint, hhint⟩ := sampleOp_publishes rx ry rz s
  have hcur := sampleOp_cur rx ry rz s
  exact {
    lockstep := ⟨(hcur .x).trans ((congrArg nextCursor h.lockstep.1).trans (hcur .y).symm),
      (hcur .y).trans ((congrArg nextCursor h.lockstep.2).trans (hcur .z).symm)⟩
    means := fun a => by rw [sampleOp_sm, ringMean_toInt]; rfl
    intensities := by
      have hv := vertIntensity_bounds x'
      have hh := horizIntensity_bounds y'
      rw [IntensitiesInRange, hvint, hhint]
      exact ⟨hv.1, hv.2, hh.1, hh.2⟩
    counts := h.counts
    ledSigns := by
      simp only [LedFollowsSign, hled, hvint, hhint, vertIntensity_toInt, horizIntensity_toInt, threshLeds_up,
        threshLeds_down, threshLeds_right, threshLeds_left, decide_eq_true_eq, clamp_hundred_pos_iff,
        clamp_hundred_neg_iff]
      omega
    pairs := h.pairs
    litBefore := h.litBefore }

/-- Settles O38: RESET establishes the seven invariants, a TICK and a SAMPLE keep them. -/
theorem stepKeepsTheInvariants : Obligations.StepKeepsTheInvariants := fun _ _ hs hstep =>
  step_keeps (fun _ => invariant35_of_stim) (fun s _ => invariant35_resetOp s) (fun _ => invariant35_tickOp)
    (fun _ rx ry rz => invariant35_sampleOp rx ry rz) hs hstep

/-- Settles O37: the reset state is what a RESET leaves. -/
theorem resetMeetsTheInvariants : Obligations.ResetMeetsTheInvariants := by
  refine ⟨?_, ?_, rfl⟩
  · rw [reset_eq_resetOp]; exact invariant35_resetOp _
  · rw [reset_eq_resetOp]; exact drivePorts_showOut _

/-! ### What a step leaves unchanged, and what it keeps -/

/-- Settles O13: the five bits are threshold tests of one pair, so they exclude each other as R24 says. -/
theorem committedLedStateIsConsistent : Obligations.CommittedLedStateIsConsistent := by
  intro rx ry rz s t h
  obtain rfl : sampleOp rx ry rz s = t := Host.Outcome.next.inj h
  obtain ⟨x', y', hled, -, -⟩ := sampleOp_publishes rx ry rz s
  simp only [hled, threshLeds_center, threshLeds_up, threshLeds_down, threshLeds_left, threshLeds_right,
    decide_eq_true_eq, decide_eq_false_iff_not, Bool.or_eq_true, Bool.and_eq_false_iff]
  by_cases hflat : -10 ≤ x' ∧ x' ≤ 10 ∧ -10 ≤ y' ∧ y' ≤ 10
  · exact .inl (by omega)
  · exact .inr (by omega)

/-- Settles O35: without RESET and TICK a step is a SAMPLE or nothing. -/
theorem onlyTickAndResetReachTheOutputs : Obligations.OnlyTickAndResetReachTheOutputs := by
  intro s t hstep hreset htick
  obtain ⟨w, ws, hw, -, hc⟩ := step_cases hstep
  rw [hw] at hreset htick
  have hpart : tickPart w { s with stim := ws } = { s with stim := ws } := if_neg (by simp [htick])
  rw [hpart] at hc
  rcases hc with ⟨hr, -⟩ | ⟨-, -, rx, ry, rz, rfl⟩ | ⟨-, -, rfl⟩
  · rw [hreset] at hr; cases hr
  · exact ⟨⟨rfl, rfl, rfl, rfl⟩, rfl, rfl, rfl⟩
  · exact ⟨⟨rfl, rfl, rfl, rfl⟩, rfl, rfl, rfl⟩

/-- Settles O36: without RESET and accepted sample a step is a TICK or nothing. -/
theorem onlyAcceptedSamplesReachTheLanes : Obligations.OnlyAcceptedSamplesReachTheLanes := by
  intro s t hstep hreset hsample
  obtain ⟨w, ws, hw, -, hc⟩ := step_cases hstep
  rw [hw] at hreset hsample
  rcases hc with ⟨hr, -⟩ | ⟨-, hs, -⟩ | ⟨-, -, rfl⟩
  · rw [hreset] at hr; cases hr
  · rw [hsample] at hs; cases hs
  · unfold tickPart
    split_ifs
    · exact ⟨lanesKept_of_lane_eq fun a => by simp, by simp, by simp⟩
    · exact ⟨lanesKept_of_lane_eq (lane_of_stim s ws), rfl, rfl⟩

/-- Settles O39: whatever writes `out` then drives the ports, and a SAMPLE writes neither. -/
theorem stepKeepsPortsShowingOut : Obligations.StepKeepsPortsShowingOut := fun _ _ hs hstep =>
  step_keeps (fun _ _ h => h) (fun _ _ => drivePorts_showOut _) (fun _ => tickOp_showOut) (fun _ _ _ _ h => h) hs hstep

/-- Settles O40: a TICK does not touch the wires, a RESET and a SAMPLE empty them. -/
theorem stepLeavesNoValueInsideAnOperation : Obligations.StepLeavesNoValueInsideAnOperation := fun _ _ hs hstep =>
  step_keeps (P := fun s => s.wires = Wires.idle) (fun _ _ h => h) (fun _ _ => rfl)
    (fun s h => (tickOp_wires s).trans h) (fun _ _ _ _ _ => rfl) hs hstep

/-- Settles O4: between period starts the compare events only clear bits, so what is lit was lit before. -/
theorem tickCompletesAndKeepsPipelineState : Obligations.TickCompletesAndKeepsPipelineState := by
  intro s
  refine ⟨tickOp s, rfl, by rw [tickOp_cnt, nextCount_toNat], lanesKept_of_lane_eq (tickOp_lane s), tickOp_vint s,
    tickOp_hint s, tickOp_led_center s, fun hcnt => ?_⟩
  rw [tickOp_cnt] at hcnt
  obtain ⟨hA, hB, -, hout⟩ := tickOp_within_period (s := s) fun h0 => hcnt (congrArg BitVec.toNat h0)
  rw [hout, afterCompares_up, afterCompares_down, afterCompares_left, afterCompares_right]
  exact ⟨hA, hB, afterCompares_center _ _, And.left, And.left, And.left, And.left⟩

theorem thresholdOf_minus128 {v : Intensity} (h : v.toInt = -128) : thresholdOf v = Config.thrUnstated v := by
  simp [thresholdOf, h]

/-- Settles O6: the period start loads each pair's threshold on its own. -/
theorem periodStartOnMinus128LoadsFreeThreshold : Obligations.PeriodStartOnMinus128LoadsFreeThreshold := fun s _ =>
  ⟨pwmPeriodOp s, rfl, thresholdOf_minus128, thresholdOf_minus128, thresholdOf_toNat, thresholdOf_toNat,
    setBySign_down .., setBySign_up .., setBySign_right .., setBySign_left .., setBySign_center .., rfl,
    drivePorts_driven rfl, lanesKept_of_lane_eq (pwmPeriodOp_lane s), rfl, rfl, rfl⟩

/-! ### R34: the stimulus stream is an input -/

/-- An operation that neither reads, adds nor drops pending words. -/
def StreamBlind (f : State → State) : Prop :=
  ∀ (s : State) (ws : List Stimulus), f { s with stim := ws } = { f s with stim := ws }

theorem StreamBlind.comp {f g : State → State} (hf : StreamBlind f) (hg : StreamBlind g) :
    StreamBlind fun s => f (g s) := fun s ws =>
  (congrArg f (hg s ws)).trans (hf (g s) ws)

theorem StreamBlind.keeps_stim {f : State → State} (hf : StreamBlind f) (s : State) : (f s).stim = s.stim :=
  (congrArg State.stim (hf s s.stim) :)

theorem sampleRawOp_streamBlind (nd : NdFlags) (b0 b1 b2 b3 b4 b5 : Byte) :
    StreamBlind (sampleRawOp nd b0 b1 b2 b3 b4 b5) := fun s ws => by
  rw [sampleRawOp_eq, sampleRawOp_eq]
  split_ifs
  · exact sampleOp_of_stim _ _ _ s ws
  · rfl

/-- Every instruction runs an operation that is blind to the stream. -/
theorem exec_streamBlind (i : Instr) : ∃ f : State → State, StreamBlind f ∧ ∀ s, exec i s = .next (f s) := by
  cases i with
  | tick => exact ⟨tickOp, tickOp_of_stim, fun _ => rfl⟩
  | sample rx ry rz => exact ⟨sampleOp rx ry rz, sampleOp_of_stim rx ry rz, fun _ => rfl⟩
  | tickSample rx ry rz =>
    exact ⟨_, StreamBlind.comp (sampleOp_of_stim rx ry rz) tickOp_of_stim, fun _ => rfl⟩
  | sampler nd b0 b1 b2 b3 b4 b5 => exact ⟨_, sampleRawOp_streamBlind nd b0 b1 b2 b3 b4 b5, fun _ => rfl⟩
  | tickSampler nd b0 b1 b2 b3 b4 b5 =>
    exact ⟨_, (sampleRawOp_streamBlind nd b0 b1 b2 b3 b4 b5).comp tickOp_of_stim, fun _ => rfl⟩
  | filtPush a r => exact ⟨filtPushOp a r, filtPushOp_of_stim a r, fun _ => rfl⟩
  | filtMean a => exact ⟨filtMeanOp a, filtMeanOp_of_stim a, fun _ => rfl⟩
  | unpack a b0 b1 => exact ⟨unpackOp a b0 b1, fun _ _ => rfl, fun _ => rfl⟩
  | newdata nd => exact ⟨newdataOp nd, fun _ _ => rfl, fun _ => rfl⟩
  | reset => exact ⟨resetOp, fun _ _ => rfl, fun _ => rfl⟩
  | idle => exact ⟨idleOp, fun _ _ => rfl, fun _ => rfl⟩
  | clsAbs => exact ⟨clsAbsOp, fun _ _ => rfl, fun _ => rfl⟩
  | clsRemap => exact ⟨clsRemapOp, fun _ _ => rfl, fun _ => rfl⟩
  | clsThresh => exact ⟨clsThreshOp, fun _ _ => rfl, fun _ => rfl⟩
  | clsIntens => exact ⟨clsIntensOp, fun _ _ => rfl, fun _ => rfl⟩
  | commit => exact ⟨commitOp, fun _ _ => rfl, fun _ => rfl⟩
  | pwmPeriod => exact ⟨pwmPeriodOp, fun _ _ => rfl, fun _ => rfl⟩
  | pwmCmpA => exact ⟨pwmCmpAOp, fun _ _ => rfl, fun _ => rfl⟩
  | pwmCmpB => exact ⟨pwmCmpBOp, fun _ _ => rfl, fun _ => rfl⟩
  | portMap => exact ⟨portMapOp, fun _ _ => rfl, fun _ => rfl⟩

/-- Settles O34: every instruction's operation is blind to the stream. -/
theorem instructionsLeaveTheStreamAlone : Obligations.InstructionsLeaveTheStreamAlone := by
  intro i s ws
  obtain ⟨f, hf, he⟩ := exec_streamBlind i
  exact ⟨f s, he s, by rw [he, hf], hf.keeps_stim s⟩

/-! ### R22: the cursor is not observable -/

/-- Two states with the same means whose windows hold the same values, each read from its own cursor on. -/
def SameWindow (s s' : State) : Prop :=
  ∀ a : Axis, (s.lane a).sm = (s'.lane a).sm ∧
    ∀ j : Slot, memRead s a (slotOf (s.lane a).cur + j) = memRead s' a (slotOf (s'.lane a).cur + j)

theorem slotOf_nextCursor (c : Cursor) : slotOf (nextCursor c) = slotOf c + 1 := by
  apply Fin.ext
  rw [Fin.val_add]
  exact nextCursor_toNat c

/-- The sum of R101 may start at any slot: it goes round the whole ring. -/
theorem ringSum_eq_sum_from (s : State) (a : Axis) (c : Slot) :
    ringSum s a = ∑ j : Slot, (memRead s a (c + j)).toInt := by
  rw [ringSum_eq_sum]
  exact (Equiv.sum_comp (Equiv.addLeft c) fun i => (memRead s a i).toInt).symm

/-- The window after a SAMPLE, read from the new cursor on: the old one without its oldest value, then the new value. -/
theorem sampleOp_window (rx ry rz : Sample) (s : State) (a : Axis) (j : Slot) :
    memRead (sampleOp rx ry rz s) a (slotOf ((sampleOp rx ry rz s).lane a).cur + j) =
      if 1 + j = 0 then rawOf rx ry rz a else memRead s a (slotOf (s.lane a).cur + (1 + j)) := by
  rw [sampleOp_memRead, sampleOp_cur, slotOf_nextCursor, add_assoc]
  simp only [add_eq_left]

theorem sampleOp_sameWindow (rx ry rz : Sample) {s s' : State} (h : SameWindow s s') :
    SameWindow (sampleOp rx ry rz s) (sampleOp rx ry rz s') := fun a => by
  have hwin : ∀ j : Slot, memRead (sampleOp rx ry rz s) a (slotOf ((sampleOp rx ry rz s).lane a).cur + j) =
      memRead (sampleOp rx ry rz s') a (slotOf ((sampleOp rx ry rz s').lane a).cur + j) := fun j => by
    rw [sampleOp_window, sampleOp_window, (h a).2]
  refine ⟨?_, hwin⟩
  rw [sampleOp_sm, sampleOp_sm, ringMean, ringMean, ringSum_eq_sum_from _ a (slotOf ((sampleOp rx ry rz s).lane a).cur),
    ringSum_eq_sum_from _ a (slotOf ((sampleOp rx ry rz s').lane a).cur)]
  simp only [hwin]

theorem runInstrs_samples_sameWindow (l : List (Sample × Sample × Sample)) : ∀ {s s' t t' : State}, SameWindow s s' →
    runInstrs (l.map fun r => .sample r.1 r.2.1 r.2.2) s = .next t →
    runInstrs (l.map fun r => .sample r.1 r.2.1 r.2.2) s' = .next t' → SameWindow t t' := by
  induction l with
  | nil =>
    intro s s' t t' h ht ht'
    obtain rfl : s = t := Host.Outcome.next.inj ht
    obtain rfl : s' = t' := Host.Outcome.next.inj ht'
    exact h
  | cons r l ih => exact fun h ht ht' => ih (sampleOp_sameWindow r.1 r.2.1 r.2.2 h) ht ht'

/-- Settles O45: all-zero windows are the same from every cursor, and every SAMPLE keeps them the same. -/
theorem startingCursorIsUnobservable : Obligations.StartingCursorIsUnobservable := by
  intro l s s' t t' hzero hmeans ht ht' a
  have h : SameWindow s s' := fun b => ⟨hmeans b, fun j => (hzero b _).1.trans (hzero b _).2.symm⟩
  exact (runInstrs_samples_sameWindow l h ht ht' a).1

end Sys2Proof.Machine

/-! Encoding: words, the operations they select, and the trace lines that assemble to them (30_encoding.md). -/

/-! ### Words and their fields -/

namespace Sys2Proof

/-- No bit of a word is outside its fields (R70). -/
theorem toWord_ofWord (w : Stimulus) : (Fields.ofWord w).toWord = w := by
  apply BitVec.eq_of_getLsbD_eq
  intro i hi
  rw [toWord_getLsbD, ev_getLsbD]
  simp only [Fields.ofWord, BitVec.getLsbD_extractLsb']
  interval_cases i <;> simp

/-- The bits that are 1 in both of two fields. -/
def Fields.and (f g : Fields) : Fields :=
  { res := f.res && g.res, nd := f.nd &&& g.nd, raw := f.raw && g.raw, rst := f.rst && g.rst
    tick := f.tick && g.tick, smp := f.smp && g.smp
    b0 := f.b0 &&& g.b0, b1 := f.b1 &&& g.b1, b2 := f.b2 &&& g.b2
    b3 := f.b3 &&& g.b3, b4 := f.b4 &&& g.b4, b5 := f.b5 &&& g.b5 }

theorem ofWord_and (w m : Stimulus) : Fields.ofWord (w &&& m) = (Fields.ofWord w).and (Fields.ofWord m) := by
  simp only [Fields.ofWord, Fields.and, BitVec.getLsbD_and, BitVec.extractLsb'_and]

@[simp] theorem byte_and_ones (b : Byte) : b &&& 255#8 = b := BitVec.and_allOnes

@[simp] theorem ndFlags_and_ones (nd : NdFlags) : nd &&& 7#3 = nd := BitVec.and_allOnes

/-! ### Words that agree in the bits of a mask -/

theorem getLsbD_eq_of_xor_and_eq_zero {w w' m : Stimulus} (h : (w ^^^ w') &&& m = 0) {k : Nat}
    (hk : m.getLsbD k = true) : w.getLsbD k = w'.getLsbD k := by
  have hbit : ((w ^^^ w') &&& m).getLsbD k = false := by rw [h]; exact BitVec.getLsbD_zero
  simpa only [BitVec.getLsbD_and, BitVec.getLsbD_xor, hk, Bool.and_true, bne_eq_false_iff_eq] using hbit

theorem and_eq_of_xor_and_eq_zero {w w' m : Stimulus} (h : (w ^^^ w') &&& m = 0) : w &&& m = w' &&& m := by
  apply BitVec.eq_of_getLsbD_eq
  intro k _
  cases hk : m.getLsbD k
  · simp only [BitVec.getLsbD_and, hk, Bool.and_false]
  · simp only [BitVec.getLsbD_and, getLsbD_eq_of_xor_and_eq_zero h hk]

/-! ### The encoder, and the decoder on its words -/

/-- Exactly the operations of their own have a word (R74, R76). -/
theorem encode_isSome (i : Instr) : (encode i).isSome = i.wellFormed := by cases i <;> rfl

theorem exists_encode {i : Instr} (h : i.wellFormed = true) : ∃ w : Stimulus, encode i = some w :=
  Option.isSome_iff_exists.mp ((encode_isSome i).trans h)

theorem encode_canonical (i : Instr) : encode i.canonical = encode i := by
  cases i <;> simp [Instr.canonical, encode, Instr.fields, Fields.ofBurst, fieldBits_fieldBits]

theorem examined_canonical (i : Instr) : i.canonical.examined = i.examined := by cases i <;> rfl

/-- The fields of a canonical word name the operation, its unexamined operand bits 0. -/
theorem operation_of_fields {i : Instr} {f : Fields} (h : i.fields = some f) :
    f.res = false ∧ f.operation = i.canonical := by
  cases i with
  | sample | tickSample =>
    cases h
    simp [Fields.operation, Fields.ofSample, Fields.zero, Instr.canonical, beSample_bytes]
  | reset | idle | tick | sampler | tickSampler => cases h; exact ⟨rfl, rfl⟩
  | _ => cases h

/-- R74: the decoder undoes the encoder. -/
theorem decode_of_encode {i : Instr} {w : Stimulus} (h : encode i = some w) : decode w = .ok i.canonical := by
  obtain ⟨f, hf, rfl⟩ := Option.map_eq_some_iff.mp h
  obtain ⟨hres, hop⟩ := operation_of_fields hf
  rw [decode_toWord, hres, hop]
  rfl

/-! ### The decoder, line by line of R74's table -/

theorem decode_reserved {w : Stimulus} (h : w.getLsbD 55 = true) : decode w = .error .reservedEv7 := if_pos h

theorem decode_legal {w : Stimulus} (h : w.getLsbD 55 = false) : decode w = .ok (Fields.ofWord w).operation :=
  if_neg (Bool.eq_false_iff.mp h)

theorem decode_ok_iff {w : Stimulus} {i : Instr} :
    decode w = .ok i ↔ w.getLsbD 55 = false ∧ (Fields.ofWord w).operation = i := by
  cases h : w.getLsbD 55
  · simp [decode_legal h]
  · simp [decode_reserved h]

theorem decode_of_rst {w : Stimulus} (h : w.getLsbD 55 = false) (hrst : w.getLsbD 50 = true) :
    decode w = .ok .reset :=
  (decode_legal h).trans (congrArg _ (if_pos hrst))

theorem decode_of_no_sample {w : Stimulus} (h : w.getLsbD 55 = false) (hrst : w.getLsbD 50 = false)
    (hsmp : w.getLsbD 48 = false) : decode w = .ok (if w.getLsbD 49 then .tick else .idle) := by
  rw [decode_legal h]
  simp only [Fields.operation, Fields.ofWord, hrst, hsmp, Bool.false_eq_true, if_false]

/-- A pre-assembled sample: each operand is two bytes side by side (R72). -/
theorem decode_of_sample {w : Stimulus} (h : w.getLsbD 55 = false) (hrst : w.getLsbD 50 = false)
    (hsmp : w.getLsbD 48 = true) (hraw : w.getLsbD 51 = false) :
    decode w = .ok (if w.getLsbD 49
      then .tickSample (w.extractLsb' 32 16) (w.extractLsb' 16 16) (w.extractLsb' 0 16)
      else .sample (w.extractLsb' 32 16) (w.extractLsb' 16 16) (w.extractLsb' 0 16)) := by
  rw [decode_legal h, ← beSample_extract w 32, ← beSample_extract w 16, ← beSample_extract w 0]
  simp only [Fields.operation, Fields.ofWord, hrst, hsmp, hraw, Bool.false_eq_true, if_false, if_true]

/-- A raw burst (R73). -/
theorem decode_of_burst {w : Stimulus} (h : w.getLsbD 55 = false) (hrst : w.getLsbD 50 = false)
    (hsmp : w.getLsbD 48 = true) (hraw : w.getLsbD 51 = true) :
    decode w = .ok (if w.getLsbD 49
      then .tickSampler (w.extractLsb' 52 3) (w.extractLsb' 40 8) (w.extractLsb' 32 8) (w.extractLsb' 24 8)
        (w.extractLsb' 16 8) (w.extractLsb' 8 8) (w.extractLsb' 0 8)
      else .sampler (w.extractLsb' 52 3) (w.extractLsb' 40 8) (w.extractLsb' 32 8) (w.extractLsb' 24 8)
        (w.extractLsb' 16 8) (w.extractLsb' 8 8) (w.extractLsb' 0 8)) := by
  rw [decode_legal h]
  simp only [Fields.operation, Fields.ofWord, hrst, hsmp, hraw, Bool.false_eq_true, if_false, if_true]

/-! ### The bits an operation examines -/

/-- Masking fields with the bits their operation examines leaves the fields of that operation's canonical word
(R74, R75). -/
theorem operation_fields (f : Fields) (h : f.res = false) :
    f.operation.fields = some (f.and (Fields.ofWord f.operation.examined)) := by
  obtain ⟨res, nd, raw, rst, tick, smp, b0, b1, b2, b3, b4, b5⟩ := f
  obtain rfl : res = false := h
  cases rst with
  | true => simp [Fields.operation, Instr.fields, Instr.examined, Fields.and, Fields.ofWord, Fields.zero]
  | false =>
    cases smp with
    | false =>
      cases tick <;>
        simp [Fields.operation, Instr.fields, Instr.examined, Fields.and, Fields.ofWord, Fields.zero]
    | true =>
      cases raw with
      | false =>
        cases tick <;>
          simp [Fields.operation, Instr.fields, Instr.examined, Fields.and, Fields.ofWord, Fields.zero,
            Fields.ofSample, highByte_beSample, lowByte_beSample]
      | true =>
        cases tick <;>
          simp [Fields.operation, Instr.fields, Instr.examined, Fields.and, Fields.ofWord, Fields.zero,
            Fields.ofBurst, fieldBits]

/-- Encoding a word's operation clears exactly the bits the operation does not examine. -/
theorem encode_of_decode {w : Stimulus} {i : Instr} (h : decode w = .ok i) : encode i = some (w &&& i.examined) := by
  obtain ⟨hlegal, rfl⟩ := decode_ok_iff.mp h
  rw [encode, operation_fields _ hlegal, Option.map_some, ← ofWord_and, toWord_ofWord]

/-- A canonical word has every bit 0 that its operation does not examine. -/
theorem encode_and_eq_zero {i : Instr} {w m : Stimulus} (h : encode i = some w) (hm : i.examined &&& m = 0) :
    w &&& m = 0 := by
  have he := encode_of_decode (decode_of_encode h)
  rw [encode_canonical, examined_canonical, h, Option.some.injEq] at he
  rw [he, BitVec.and_assoc, hm]
  exact BitVec.and_zero

/-- The mask of the word's line in R74's table, for a raw form without the operand bits that R75 (e) leaves out. -/
def lineMask (w : Stimulus) : Stimulus :=
  if w.getLsbD 50 then 0x84000000000000 else if !w.getLsbD 48 then 0x87000000000000
    else if !w.getLsbD 51 then 0x8FFFFFFFFFFFFF else 0xFFFFC0FFC0FFC0

theorem operation_examined (w : Stimulus) : (Fields.ofWord w).operation.examined = lineMask w := by
  have hrst : w.getLsbD 50 = (Fields.ofWord w).rst := rfl
  have hsmp : w.getLsbD 48 = (Fields.ofWord w).smp := rfl
  have hraw : w.getLsbD 51 = (Fields.ofWord w).raw := rfl
  rw [lineMask, hrst, hsmp, hraw, Fields.operation]
  split_ifs <;> simp_all [Instr.examined]

theorem lineMask_getLsbD_res (w : Stimulus) : (lineMask w).getLsbD 55 = true := by
  unfold lineMask; split_ifs <;> rfl

/-- The bits that select a word's line of R74's table are in the mask of that line. -/
theorem lineMask_eq_of_agree {w w' : Stimulus} (h : (w ^^^ w') &&& lineMask w = 0) : lineMask w' = lineMask w := by
  have hrst : w.getLsbD 50 = w'.getLsbD 50 :=
    getLsbD_eq_of_xor_and_eq_zero h (by unfold lineMask; split_ifs <;> rfl)
  cases h50 : w.getLsbD 50 with
  | true => simp only [lineMask, ← hrst, h50, if_true]
  | false =>
    have hsmp : w.getLsbD 48 = w'.getLsbD 48 :=
      getLsbD_eq_of_xor_and_eq_zero h (by rw [lineMask, h50]; split_ifs <;> trivial)
    cases h48 : w.getLsbD 48 with
    | false => simp only [lineMask, ← hrst, ← hsmp, h50, h48, Bool.not_false, if_true]
    | true =>
      have hraw : w.getLsbD 51 = w'.getLsbD 51 :=
        getLsbD_eq_of_xor_and_eq_zero h (by rw [lineMask, h50, h48]; cases w.getLsbD 51 <;> rfl)
      simp only [lineMask, ← hrst, ← hsmp, ← hraw]

end Sys2Proof

namespace Sys2Proof.Machine

/-! ### The effect of an operation does not depend on the bits it does not examine -/

theorem exec_canonical (i : Instr) (s : State) : exec i.canonical s = exec i s := by
  cases i with
  | sampler | tickSampler =>
    simp [Instr.canonical, exec, execSampler, execTickSampler, sampleRawOp_eq, unpackSample_fieldBits]
  | _ => rfl

/-- Operations with one canonical word have one effect. -/
theorem exec_eq_of_encode_eq {i i' : Instr} {w : Stimulus} (h : encode i = some w) (h' : encode i' = some w)
    (s : State) : exec i' s = exec i s := by
  have hc : i.canonical = i'.canonical := Except.ok.inj ((decode_of_encode h).symm.trans (decode_of_encode h'))
  rw [← exec_canonical, ← hc, exec_canonical]

/-! ### The statements about words -/

/-- Settles O26: the canonical word's fields name the operation, and masking a word's fields gives them back. -/
theorem decodeOfEncodeIsTheInstruction : Obligations.DecodeOfEncodeIsTheInstruction := by
  have hback : ∀ i : Instr, i.wellFormed = true → ∃ w : Stimulus, encode i = some w ∧ decode w = .ok i.canonical :=
    fun i hi => (exists_encode hi).imp fun w hw => ⟨hw, decode_of_encode hw⟩
  refine ⟨fun i hi hc => ?_, fun i hi => ?_, ⟨rfl, rfl, rfl, fun _ _ _ => rfl, fun _ _ _ => rfl, ?_, ?_⟩,
    fun i hi => ?_, fun w i hd => ?_⟩
  · simpa only [hc] using hback i hi
  · obtain ⟨w, hw, hd⟩ := hback i hi
    exact ⟨w, hw, hd, exec_canonical i⟩
  · simp [Instr.canonical, fieldBits_eq_self_iff]
  · simp [Instr.canonical, fieldBits_eq_self_iff]
  · simpa only [hi, Option.isSome_eq_false_iff, Option.isNone_iff_eq_none] using encode_isSome i
  · have he := encode_of_decode hd
    exact ⟨by rw [← encode_isSome, he]; rfl, he⟩

/-- Settles O25: one decoder lemma per line of the table; a canonical word has no bit outside its operation's mask. -/
theorem decodeFollowsTheOperationMap : Obligations.DecodeFollowsTheOperationMap := by
  refine ⟨fun w => ⟨decode_reserved, decode_of_rst, fun h hrst htick hsmp => ?_, fun h hrst htick hsmp => ?_,
      decode_of_sample, decode_of_burst⟩, by decide, fun w h => ?_, fun rx ry rz w h => ?_,
    fun nd b0 b1 b2 b3 b4 b5 w h => ?_, fun w i hd => ?_⟩
  · rw [decode_of_no_sample h hrst hsmp, htick]; rfl
  · rw [decode_of_no_sample h hrst hsmp, htick]; rfl
  · rcases h with h | h | h <;> exact encode_and_eq_zero h (by simp [Instr.examined])
  · rcases h with h | h <;> exact encode_and_eq_zero h (by simp [Instr.examined])
  · rcases h with h | h <;> exact encode_and_eq_zero h (by simp [Instr.examined])
  · obtain ⟨-, rfl⟩ := decode_ok_iff.mp hd
    rw [encode_of_decode hd, operation_examined, lineMask]

/-- Settles O27: the two words are on the same line of the table, so their operations have the same canonical word. -/
theorem unexaminedBitsHaveNoEffect : Obligations.UnexaminedBitsHaveNoEffect := by
  intro w w' i hd h
  obtain ⟨hlegal, rfl⟩ := decode_ok_iff.mp hd
  rw [operation_examined] at h
  have hd' := decode_legal ((getLsbD_eq_of_xor_and_eq_zero h (lineMask_getLsbD_res w)).symm.trans hlegal)
  have he := encode_of_decode hd
  have he' := encode_of_decode hd'
  rw [operation_examined] at he he'
  rw [lineMask_eq_of_agree h, ← and_eq_of_xor_and_eq_zero h] at he'
  exact ⟨_, hd', exec_eq_of_encode_eq he he'⟩

/-- Settles O28: each word is a literal, which the decoder computes. -/
theorem specWordsDecodeAsWritten : Obligations.SpecWordsDecodeAsWritten := by
  unfold Obligations.SpecWordsDecodeAsWritten
  decide

/-- Settles O30: the step takes the word and runs what it decodes to; without a word it runs IDLE. -/
theorem stepRunsTheDecodedWord : Obligations.StepRunsTheDecodedWord :=
  ⟨fun _ _ _ _ => step_of_decode, fun _ => step_of_empty⟩

/-- Settles O31: the decoder refuses the word, and the step names that refusal. -/
theorem stepRefusesReservedWords : Obligations.StepRefusesReservedWords := by
  intro s w rest hs h
  rw [step, takeWord_cons hs, decode_reserved h]
  rfl

end Sys2Proof.Machine

/-! ### The words of trace lines -/

namespace Sys2Proof

theorem ofSample_ev (tick : Bool) (rx ry rz : Sample) :
    (Fields.ofSample tick rx ry rz).ev = if tick then 0x03#8 else 0x01#8 := by
  simp only [Fields.ev, Fields.ofSample, Fields.zero]
  revert tick
  decide

theorem encode_sample (rx ry rz : Sample) :
    encode (.sample rx ry rz) = some (0x01#8 ++ rx ++ ry ++ rz : Stimulus) := by
  rw [encode, Instr.fields, Option.map_some, ofSample_toWord, ofSample_ev]; rfl

theorem encode_tickSample (rx ry rz : Sample) :
    encode (.tickSample rx ry rz) = some (0x03#8 ++ rx ++ ry ++ rz : Stimulus) := by
  rw [encode, Instr.fields, Option.map_some, ofSample_toWord, ofSample_ev]; rfl

/-- The event byte of a raw form: the reserved bit, the flags, then `raw`, `rst`, `tick` and `smp` (R70). -/
theorem ofBurst_ev (tick : Bool) (nd : NdFlags) (b0 b1 b2 b3 b4 b5 : Byte) :
    (Fields.ofBurst tick nd b0 b1 b2 b3 b4 b5).ev = 0#1 ++ nd ++ (if tick then 0b1011#4 else 0b1001#4) := by
  simp only [Fields.ev, Fields.ofBurst, Fields.zero]
  revert tick nd
  decide

theorem ofBurst_toWord (tick : Bool) (nd : NdFlags) (b0 b1 b2 b3 b4 b5 : Byte) :
    (Fields.ofBurst tick nd b0 b1 b2 b3 b4 b5).toWord =
      (0#1 ++ nd ++ (if tick then 0b1011#4 else 0b1001#4) ++ b0 ++ (b1 &&& 0xC0) ++ b2 ++ (b3 &&& 0xC0) ++ b4 ++
        (b5 &&& 0xC0) : Stimulus) := by
  rw [Fields.toWord, ofBurst_ev]
  rfl

theorem encode_sampler (nd : NdFlags) (b0 b1 b2 b3 b4 b5 : Byte) :
    encode (.sampler nd b0 b1 b2 b3 b4 b5) =
      some (0#1 ++ nd ++ 0b1001#4 ++ b0 ++ (b1 &&& 0xC0) ++ b2 ++ (b3 &&& 0xC0) ++ b4 ++ (b5 &&& 0xC0) : Stimulus) :=
  congrArg some (ofBurst_toWord false nd b0 b1 b2 b3 b4 b5)

theorem encode_tickSampler (nd : NdFlags) (b0 b1 b2 b3 b4 b5 : Byte) :
    encode (.tickSampler nd b0 b1 b2 b3 b4 b5) =
      some (0#1 ++ nd ++ 0b1011#4 ++ b0 ++ (b1 &&& 0xC0) ++ b2 ++ (b3 &&& 0xC0) ++ b4 ++ (b5 &&& 0xC0) : Stimulus) :=
  congrArg some (ofBurst_toWord true nd b0 b1 b2 b3 b4 b5)

end Sys2Proof

namespace Sys2Proof.Machine

/-! Every operand a register can hold is in range, and the assembler reads it back. -/

@[simp] theorem sampleOf_toInt (v : Sample) : sampleOf v.toInt = v := BitVec.ofInt_toInt

@[simp] theorem byteOf_toNat (b : Byte) : byteOf b.toNat = b := by simp [byteOf]

@[simp] theorem sampleInRange_toInt (v : Sample) : sampleInRange v.toInt = true := by
  simpa only [sampleInRange, Bool.and_eq_true, decide_eq_true_eq] using sample_toInt_bounds v

@[simp] theorem burstInRange_toNat (nd : NdFlags) (b0 b1 b2 b3 b4 b5 : Byte) :
    burstInRange nd.toNat b0.toNat b1.toNat b2.toNat b3.toNat b4.toNat b5.toNat = true := by
  simp only [burstInRange, Bool.and_eq_true, decide_eq_true_eq]
  omega

/-! A line repeats one operation, and the assembler its word. -/

theorem mapM_encode_replicate {i : Instr} {w : Stimulus} (h : encode i = some w) (n : Nat) :
    (List.replicate n i).mapM encode = some (List.replicate n w) := by
  induction n with
  | zero => rfl
  | succ n ih => simp [List.replicate_succ, h, ih]

theorem expand_eq_replicate (l : TraceLine) :
    ∃ (n : Nat) (i : Instr), i.wellFormed = true ∧ l.expand = List.replicate n i := by
  cases l with
  | ticks | periods | samples | idles => exact ⟨_, _, rfl, rfl⟩
  | _ => exact ⟨1, _, rfl, rfl⟩

theorem assemble_of_replicate {l : TraceLine} {n : Nat} {i : Instr} {w : Stimulus} (hr : l.inRange = true)
    (hl : l.expand = List.replicate n i) (h : encode i = some w) : l.assemble = some (List.replicate n w) := by
  rw [TraceLine.assemble, if_pos hr, hl, mapM_encode_replicate h]

/-- Settles O29: a line repeats one well-formed operation, whose canonical word is known. -/
theorem assembledTraceLinesDecodeBack : Obligations.AssembledTraceLinesDecodeBack := by
  refine ⟨fun l hl => ?_, ⟨rfl, rfl, rfl⟩, fun rx ry rz => ⟨?_, ?_⟩, fun nd b0 b1 b2 b3 b4 b5 => ⟨?_, ?_⟩,
    fun n => ⟨?_, ?_, ?_⟩, rfl, fun n rx ry rz => ?_, fun n x y z h => ?_, fun l hl => ?_⟩
  · obtain ⟨n, i, hi, he⟩ := expand_eq_replicate l
    obtain ⟨w, hw⟩ := exists_encode hi
    refine ⟨_, assemble_of_replicate hl he hw, ?_, ?_⟩
    · rw [he, List.map_replicate, List.map_replicate, hw]
    · rw [he, List.map_replicate, List.map_replicate, decode_of_encode hw]
  · exact assemble_of_replicate (n := 1) (by simp [TraceLine.inRange]) (by simp [TraceLine.expand])
      (encode_sample rx ry rz)
  · exact assemble_of_replicate (n := 1) (by simp [TraceLine.inRange]) (by simp [TraceLine.expand])
      (encode_tickSample rx ry rz)
  · exact assemble_of_replicate (n := 1) (by simp [TraceLine.inRange]) (by simp [TraceLine.expand])
      (encode_sampler nd b0 b1 b2 b3 b4 b5)
  · exact assemble_of_replicate (n := 1) (by simp [TraceLine.inRange]) (by simp [TraceLine.expand])
      (encode_tickSampler nd b0 b1 b2 b3 b4 b5)
  · exact assemble_of_replicate rfl rfl rfl
  · exact assemble_of_replicate rfl (congrArg (List.replicate · Instr.tick) (Nat.mul_comm n 100)) rfl
  · exact assemble_of_replicate rfl rfl rfl
  · exact assemble_of_replicate (by simp [TraceLine.inRange]) (by simp [TraceLine.expand]) (encode_sample rx ry rz)
  · obtain ⟨w, hw⟩ := exists_encode (i := .sample (sampleOf x) (sampleOf y) (sampleOf z)) rfl
    exact ⟨w, assemble_of_replicate (n := 1) h rfl hw, assemble_of_replicate h rfl hw⟩
  · rw [TraceLine.assemble, hl]; rfl

end Sys2Proof.Machine

/-! The sensor front end: what UNPACK and NEWDATA leave, and the range that raw bursts keep (40_sensor_unpack.md). -/

namespace Sys2Proof.Machine

open Sys2Proof.Safety

/-! ### UNPACK and NEWDATA on the wires -/

@[simp] theorem setRaw_raw_self (w : Wires) (a : Axis) (v : Sample) : (w.setRaw a v).raw a = v := by cases a <;> rfl

theorem setRaw_raw_of_ne (w : Wires) (v : Sample) {a b : Axis} (h : b ≠ a) : (w.setRaw a v).raw b = w.raw b := by
  cases a <;> cases b <;> simp_all [Wires.raw, Wires.setRaw]

/-- The sign bit of the 10-bit field is the high byte's top bit (R77). -/
theorem unpackSample_toInt_of_highByte (b0 b1 : Byte) :
    (unpackSample b0 b1).toInt =
      if b0.toNat < 128 then ((b0.toNat * 4 + b1.toNat / 64 : Nat) : Int)
      else ((b0.toNat * 4 + b1.toNat / 64 : Nat) : Int) - 1024 := by
  have hsign : b0.toNat * 4 + b1.toNat / 64 < 512 ↔ b0.toNat < 128 := by
    have := b1.isLt; omega
  simp only [unpackSample_toInt, hsign]

theorem newDataAccepts_iff (nd : NdFlags) : newDataAccepts nd = true ↔ nd.toNat = 7 := by
  rw [newDataAccepts, beq_iff_eq, ← BitVec.toNat_inj]; rfl

/-- Settles O20: each operation writes its wire only. -/
theorem unpackAndNewdataLeaveTheirResults : Obligations.UnpackAndNewdataLeaveTheirResults := by
  refine ⟨fun a b0 b1 s => ⟨unpackOp a b0 b1 s, rfl, ?_, fun b hb => setRaw_raw_of_ne _ _ hb, rfl, rfl, rfl, rfl⟩,
    fun nd s => ⟨newdataOp nd s, rfl, newDataAccepts_iff nd, rfl, rfl, rfl, rfl⟩⟩
  rw [← unpackSample_toInt_of_highByte]
  exact congrArg BitVec.toInt (setRaw_raw_self _ _ _)

/-! ### R93: the sensor range -/

/-- The range of a 10-bit two's complement field. -/
def InSensorRange (v : Sample) : Prop := -512 ≤ v.toInt ∧ v.toInt ≤ 511

theorem inSensorRange_zero : InSensorRange 0 := by unfold InSensorRange; decide

theorem unpackSample_inSensorRange (b0 b1 : Byte) : InSensorRange (unpackSample b0 b1) := by
  have h0 := b0.isLt
  have h1 := b1.isLt
  rw [InSensorRange, unpackSample_toInt]
  split_ifs <;> omega

/-- 16 slots in the sensor range have their sum in -8192..8176. -/
theorem ringSum_of_inSensorRange {s : State} {a : Axis} (h : ∀ i, InSensorRange (memRead s a i)) :
    -8192 ≤ ringSum s a ∧ ringSum s a ≤ 8176 := by
  rw [ringSum_eq_sum]
  have lower := Finset.card_nsmul_le_sum Finset.univ (fun i : Slot => (memRead s a i).toInt) (-512) fun i _ => (h i).1
  have upper := Finset.sum_le_card_nsmul Finset.univ (fun i : Slot => (memRead s a i).toInt) 511 fun i _ => (h i).2
  simp only [Finset.card_univ, Fintype.card_fin, nsmul_eq_mul] at lower upper
  push_cast at lower upper
  omega

/-- The truncated mean of a sum in -8192..8176 is in the sensor range again. -/
theorem tdiv_sixteen_sensorRange {a : Int} (h : -8192 ≤ a ∧ a ≤ 8176) : -512 ≤ tdiv a 16 ∧ tdiv a 16 ≤ 511 := by
  rw [tdiv_sixteen]; split_ifs <;> omega

@[simp] theorem tickPart_lane (w : Stimulus) (s : State) (a : Axis) : (tickPart w s).lane a = s.lane a := by
  unfold tickPart; split_ifs
  · exact tickOp_lane s a
  · rfl

theorem givesTick_of_not_reset {w : Stimulus} (hlegal : w.getLsbD 55 = false) (hrst : w.getLsbD 50 = false) :
    givesTick w = w.getLsbD 49 := by
  rw [givesTick, legal, hlegal, hrst]; exact Bool.true_and _

/-- The bits of a raw word whose sample is accepted (R73, R78). -/
theorem bits_of_accepted_burst {w : Stimulus} (hsample : givesSample w = true) (hraw : w.getLsbD 51 = true) :
    w.getLsbD 55 = false ∧ w.getLsbD 50 = false ∧ w.getLsbD 48 = true ∧ w.extractLsb' 52 3 = 0b111 := by
  simp only [givesSample, legal, hraw, newDataAccepts, Bool.and_eq_true, Bool.not_eq_true', Bool.not_true,
    Bool.false_or, beq_iff_eq] at hsample
  obtain ⟨⟨⟨hlegal, hrst⟩, hsmp⟩, hnd⟩ := hsample
  exact ⟨hlegal, hrst, hsmp, hnd⟩

/-- An accepted raw word samples the three values that UNPACK makes of its byte pairs, after its tick (R163, R165). -/
theorem exec_accepted_burst {w : Stimulus} {i : Instr} {s t : State} (hd : decode w = .ok i) (he : exec i s = .next t)
    (hsample : givesSample w = true) (hraw : w.getLsbD 51 = true) :
    t = sampleOp (unpackSample (w.extractLsb' 40 8) (w.extractLsb' 32 8))
      (unpackSample (w.extractLsb' 24 8) (w.extractLsb' 16 8)) (unpackSample (w.extractLsb' 8 8) (w.extractLsb' 0 8))
      (tickPart w s) := by
  obtain ⟨hlegal, hrst, hsmp, hnd⟩ := bits_of_accepted_burst hsample hraw
  rw [decode_of_burst hlegal hrst hsmp hraw] at hd
  obtain rfl := Except.ok.inj hd
  rw [tickPart, givesTick_of_not_reset hlegal hrst]
  cases htick : w.getLsbD 49 with
  | true =>
    rw [htick, if_pos rfl] at he
    rw [← Host.Outcome.next.inj he, sampleRawOp_eq, if_pos hnd, if_pos rfl]
  | false =>
    rw [htick, if_neg Bool.false_ne_true] at he
    rw [← Host.Outcome.next.inj he, sampleRawOp_eq, if_pos hnd, if_neg Bool.false_ne_true]

/-- What a slot can hold after a step whose sample, if it accepts one, is of the raw form. -/
theorem step_slot_cases {s t : State} (h : step s = .next t)
    (hraw : givesSample (takeWord s).1 = true → (takeWord s).1.getLsbD 51 = true) (a : Axis) (i : Slot) :
    memRead t a i = 0 ∨ memRead t a i = memRead s a i ∨ ∃ b0 b1 : Byte, memRead t a i = unpackSample b0 b1 := by
  obtain ⟨j, hd, he⟩ := step_next_cases h
  obtain ⟨ws, hs⟩ := takeWord_state s
  rw [hs] at he
  generalize (takeWord s).1 = w at hd hraw
  have hkept : memRead (tickPart w { s with stim := ws }) a i = memRead s a i := memRead_congr (by simp) i
  obtain ⟨-, ⟨-, rfl⟩ | ⟨-, hsample, -⟩ | ⟨-, -, rfl⟩⟩ := exec_decode_cases hd he
  · exact .inl (resetOp_memRead _ a i)
  · rw [exec_accepted_burst hd he hsample (hraw hsample), sampleOp_memRead, hkept]
    split_ifs
    · cases a <;> exact .inr (.inr ⟨_, _, rfl⟩)
    · exact .inr (.inl rfl)
  · exact .inr (.inl hkept)

theorem meansCurrent_sampleOp (rx ry rz : Sample) (s : State) : MeansCurrent (sampleOp rx ry rz s) := fun a => by
  rw [sampleOp_sm, ringMean_toInt]; rfl

theorem step_keeps_meansCurrent {s t : State} (hs : MeansCurrent s) (h : step s = .next t) : MeansCurrent t :=
  step_keeps (P := MeansCurrent) (fun s ws => meansCurrent_of_lane_eq (lane_of_stim s ws))
    (fun s _ => (invariant35_resetOp s).means) (fun s => meansCurrent_of_lane_eq (tickOp_lane s))
    (fun s rx ry rz _ => meansCurrent_sampleOp rx ry rz s) hs h

/-- Settles O44: a slot is 0, as before or an unpacked value, and the means stay current, so the range of the slots
bounds the sums and the means. -/
theorem rawBurstsKeepTheSensorRange : Obligations.RawBurstsKeepTheSensorRange := by
  intro s t hslots hmeans hstep hraw a
  have hrange : ∀ i : Slot, InSensorRange (memRead t a i) := fun i => by
    rcases step_slot_cases hstep hraw a i with e | e | ⟨b0, b1, e⟩ <;> rw [e]
    · exact inSensorRange_zero
    · exact hslots a i
    · exact unpackSample_inSensorRange b0 b1
  have hsum := ringSum_of_inSensorRange hrange
  rw [step_keeps_meansCurrent hmeans hstep a]
  obtain ⟨hlow, hhigh⟩ := tdiv_sixteen_sensorRange hsum
  exact ⟨hrange, hsum.1, hsum.2, hlow, hhigh⟩

end Sys2Proof.Machine

/-! The filter: its window as a list, and what follows for the means (41_filter.md). -/

namespace Sys2Proof.Machine

open Sys2Proof.Safety

/-! ### R101, R106: the mean of the 16 slots -/

/-- Settles O19: the mean register holds the truncated quotient of a sum that fits, and the rest is as before. -/
theorem filtMeanIsTheTruncatedMean : Obligations.FiltMeanIsTheTruncatedMean := by
  intro a s
  rw [← ringSum_eq_sum]
  have hmean : ((filtMeanOp a s).lane a).sm.toInt = Int.tdiv (ringSum s a) 16 := by
    rw [filtMeanOp_sm_self]; exact ringMean_toInt s a
  exact ⟨filtMeanOp a s, rfl, hmean, (ringSum_bounds s a).1, (ringSum_bounds s a).2,
    fun b i => filtMeanOp_memRead a b s i, fun b => filtMeanOp_cur a b s,
    fun b hb => congrArg Lane.sm (filtMeanOp_lane_of_ne s hb), by simp [SharedKept], by simp [SchedulerKept],
    by simp [PortsKept]⟩

/-- Settles O43: the sum over the slots is the same in every order, and FILT.MEAN reads no cursor. -/
theorem meanDependsOnTheMultisetOnly : Obligations.MeanDependsOnTheMultisetOnly := by
  intro a s s' p hperm
  have hsum : ringSum s' a = ringSum s a := by
    simp only [ringSum_eq_sum, hperm]
    exact Equiv.sum_comp p fun i => (memRead s a i).toInt
  refine ⟨filtMeanOp a s, filtMeanOp a s', rfl, rfl, ?_⟩
  rw [filtMeanOp_sm_self, filtMeanOp_sm_self, ringMean, ringMean, hsum]

/-! ### R100: one push -/

/-- Settles O18: one slot and one cursor are written. -/
theorem filtPushWritesOneSlotAndAdvances : Obligations.FiltPushWritesOneSlotAndAdvances := by
  intro a r s
  refine ⟨filtPushOp a r s, rfl, ?_, ?_, fun b i hne => ?_,
    fun b hb => congrArg Lane.cur (filtPushOp_lane_of_ne r s hb), fun b => filtPushOp_sm a b r s, by simp [SharedKept],
    by simp [SchedulerKept], by simp [PortsKept]⟩
  · rw [filtPushOp_memRead, if_pos ⟨rfl, rfl⟩]
  · rw [filtPushOp_cur_self, nextCursor_toNat]
  · rw [filtPushOp_memRead, if_neg hne]

/-! ### R102: the lanes share nothing -/

theorem filtPushOp_lane_congr (r : Sample) {s s' : State} {a : Axis} (h : s.lane a = s'.lane a) :
    (filtPushOp a r s).lane a = (filtPushOp a r s').lane a := by
  simp [filtPushOp, memWrite, h]

theorem filtMeanOp_lane_congr {s s' : State} {a : Axis} (h : s.lane a = s'.lane a) :
    (filtMeanOp a s).lane a = (filtMeanOp a s').lane a := by
  have hsum : ringSum s a = ringSum s' a := ringSum_congr fun i => memRead_congr h i
  simp [filtMeanOp, ringMean, h, hsum]

theorem sampleOp_lane_congr {rx ry rz qx qy qz : Sample} {s s' : State} {a : Axis} (h : s.lane a = s'.lane a)
    (hraw : rawOf rx ry rz a = rawOf qx qy qz a) :
    (sampleOp rx ry rz s).lane a = (sampleOp qx qy qz s').lane a := by
  rw [sampleOp_lane, sampleOp_lane, filterSample_lane, filterSample_lane, hraw]
  exact filtMeanOp_lane_congr (filtPushOp_lane_congr _ h)

/-- Settles O46: a lane after SAMPLE is that lane's push and mean. -/
theorem lanesShareNothing : Obligations.LanesShareNothing := by
  intro rx ry rz qx qy qz s s' t t' ht ht'
  obtain rfl : sampleOp rx ry rz s = t := Host.Outcome.next.inj ht
  obtain rfl : sampleOp qx qy qz s' = t' := Host.Outcome.next.inj ht'
  exact ⟨sampleOp_lane_congr (a := .x), sampleOp_lane_congr (a := .y), sampleOp_lane_congr (a := .z)⟩

/-! ### The window: the 16 slots from the cursor on, oldest value first -/

/-- The 16 slot values of an axis, oldest first: the cursor names the oldest one (R100). -/
def windowList (s : State) (a : Axis) : List Sample :=
  List.ofFn fun j : Slot => memRead s a (slotOf (s.lane a).cur + j)

theorem windowList_congr {s t : State} {a : Axis} (h : s.lane a = t.lane a) : windowList s a = windowList t a := by
  simp only [windowList, memRead_congr h, h]

@[simp] theorem windowList_length (s : State) (a : Axis) : (windowList s a).length = 16 := List.length_ofFn

theorem ringSum_eq_windowList_sum (s : State) (a : Axis) :
    ringSum s a = ((windowList s a).map BitVec.toInt).sum := by
  rw [ringSum_eq_sum_from s a (slotOf (s.lane a).cur), windowList, List.map_ofFn, List.sum_ofFn]
  rfl

/-- The window is its oldest value, which is the one in the slot at the cursor, and then the others. -/
theorem windowList_eq_cons (s : State) (a : Axis) :
    windowList s a = memRead s a (slotOf (s.lane a).cur) ::
      List.ofFn fun i : Fin 15 => memRead s a (slotOf (s.lane a).cur + i.succ) := by
  rw [windowList, List.ofFn_succ, add_zero]

/-- FILT.PUSH drops the oldest value of the window and appends the new one (R100). -/
theorem filtPushOp_windowList (a : Axis) (r : Sample) (s : State) :
    windowList (filtPushOp a r s) a = (windowList s a).tail ++ [r] := by
  have hread (j : Slot) : memRead (filtPushOp a r s) a (slotOf ((filtPushOp a r s).lane a).cur + j) =
      if 1 + j = 0 then r else memRead s a (slotOf (s.lane a).cur + (1 + j)) := by
    rw [filtPushOp_memRead, filtPushOp_cur_self, slotOf_nextCursor, add_assoc]
    simp only [true_and, add_eq_left]
  have hkept (i : Fin 15) : 1 + i.castSucc = i.succ := (add_comm _ _).trans Fin.coeSucc_eq_succ
  have hlast : 1 + Fin.last 15 = 0 := rfl
  rw [windowList_eq_cons s a, List.tail_cons, windowList, List.ofFn_succ', List.concat_eq_append]
  simp only [hread, hkept, hlast, Fin.succ_ne_zero, if_false, if_true]

theorem filtMeanOp_windowList (a : Axis) (s : State) : windowList (filtMeanOp a s) a = windowList s a := by
  simp only [windowList, filtMeanOp_memRead, filtMeanOp_cur]

theorem sampleOp_windowList (rx ry rz : Sample) (s : State) (a : Axis) :
    windowList (sampleOp rx ry rz s) a = (windowList s a).tail ++ [rawOf rx ry rz a] := by
  have hlane : (sampleOp rx ry rz s).lane a = (filtMeanOp a (filtPushOp a (rawOf rx ry rz a) s)).lane a := by
    rw [sampleOp_lane, filterSample_lane]
  rw [windowList_congr hlane, filtMeanOp_windowList, filtPushOp_windowList]

/-! ### R105: the cached sum -/

/-- The sum after FILT.PUSH has lost the oldest value and gained the new one (R105). -/
theorem ringSum_filtPushOp (a : Axis) (r : Sample) (s : State) :
    ringSum (filtPushOp a r s) a = ringSum s a - (memRead s a (slotOf (s.lane a).cur)).toInt + r.toInt := by
  rw [ringSum_eq_windowList_sum, ringSum_eq_windowList_sum, filtPushOp_windowList, windowList_eq_cons s a]
  simp only [List.tail_cons, List.map_append, List.map_cons, List.map_nil, List.sum_append, List.sum_cons, List.sum_nil,
    add_zero, add_sub_cancel_left]

/-- Settles O47: the cached sum follows the sum of the slots through a push, and FILT.MEAN divides the same number. -/
theorem cachedSumGivesTheSameMean : Obligations.CachedSumGivesTheSameMean := by
  refine ⟨fun a r s acc hacc => ?_, fun a s t ht => ?_⟩
  · have hpush : accAfterPush s a r acc = ringSum (filtPushOp a r s) a := by
      rw [ringSum_filtPushOp, accAfterPush, hacc]
    refine ⟨filtPushOp a r s, filtMeanOp a (filtPushOp a r s), rfl, hpush, rfl, ?_⟩
    rw [filtMeanOp_sm_self, hpush]; rfl
  · obtain rfl : resetOp s = t := Host.Outcome.next.inj ht
    exact (resetOp_ringSum s a).symm

/-! ### R103, R104: the means after a stretch of samples -/

/-- The state after a stretch of SAMPLEs. -/
def afterSamples (l : List (Sample × Sample × Sample)) (s : State) : State :=
  l.foldl (fun u r => sampleOp r.1 r.2.1 r.2.2 u) s

theorem afterSamples_cons (r : Sample × Sample × Sample) (l : List (Sample × Sample × Sample)) (s : State) :
    afterSamples (r :: l) s = afterSamples l (sampleOp r.1 r.2.1 r.2.2 s) := rfl

theorem runInstrs_samples (l : List (Sample × Sample × Sample)) (s : State) :
    runInstrs (l.map fun r => .sample r.1 r.2.1 r.2.2) s = .next (afterSamples l s) := by
  induction l generalizing s with
  | nil => rfl
  | cons r l ih => exact ih (sampleOp r.1 r.2.1 r.2.2 s)

/-- The window after a stretch of samples: as many values as came in have left at the old end. -/
theorem afterSamples_windowList (l : List (Sample × Sample × Sample)) (s : State) (a : Axis) :
    windowList (afterSamples l s) a =
      (windowList s a ++ l.map fun r => rawOf r.1 r.2.1 r.2.2 a).drop l.length := by
  induction l generalizing s with
  | nil => simp [afterSamples]
  | cons r l ih =>
    have hstep := ih (sampleOp r.1 r.2.1 r.2.2 s)
    rw [sampleOp_windowList, List.append_assoc, windowList_eq_cons s a] at hstep
    rw [windowList_eq_cons s a]
    exact hstep

/-- The means are current after a stretch of samples if they were before it. -/
theorem meansCurrent_afterSamples (l : List (Sample × Sample × Sample)) {s : State} (hs : MeansCurrent s) :
    MeansCurrent (afterSamples l s) := by
  induction l generalizing s with
  | nil => exact hs
  | cons r l ih => exact ih (meansCurrent_sampleOp r.1 r.2.1 r.2.2 s)

/-- From an all-zero window, up to 16 samples have their own sum in the window (R103). -/
theorem ringSum_afterSamples_of_zero {l : List (Sample × Sample × Sample)} (hlen : l.length ≤ 16) {s : State} {a : Axis}
    (hzero : ∀ i, memRead s a i = 0) :
    ringSum (afterSamples l s) a = (l.map fun r => (rawOf r.1 r.2.1 r.2.2 a).toInt).sum := by
  have hwin : windowList s a = List.replicate 16 0 := by simp only [windowList, hzero, List.ofFn_const]
  rw [ringSum_eq_windowList_sum, afterSamples_windowList, List.drop_append_of_le_length (by simpa using hlen), hwin,
    List.drop_replicate, List.map_append, List.map_replicate, List.map_map, List.sum_append, List.sum_replicate]
  simp [Function.comp_def]

/-- Settles O42: what is left of the zero-filled window adds nothing to the sum of the samples. -/
theorem startupMeanIsBiasedTowardZero : Obligations.StartupMeanIsBiasedTowardZero := by
  intro l hlen
  have hzero (a : Axis) (i : Slot) : memRead State.reset a i = 0 := by rw [reset_eq_resetOp, resetOp_memRead]
  have hmean (a : Axis) : ((afterSamples l State.reset).lane a).sm.toInt =
      Int.tdiv (l.map fun r => (rawOf r.1 r.2.1 r.2.2 a).toInt).sum 16 := by
    rw [meansCurrent_afterSamples l resetMeetsTheInvariants.1.means a,
      ringSum_afterSamples_of_zero hlen (hzero a)]
    rfl
  exact ⟨afterSamples l State.reset, runInstrs_samples l State.reset, hmean .x, hmean .y, hmean .z⟩

/-- 16 equal samples fill the whole window, so nothing of the state before is left in the mean (R104). -/
theorem afterSamples_constant_sm (vx vy vz : Sample) (s : State) (a : Axis) :
    ((afterSamples (List.replicate 16 (vx, vy, vz)) s).lane a).sm = rawOf vx vy vz a := by
  have hwin : windowList (afterSamples (List.replicate 16 (vx, vy, vz)) s) a = List.replicate 16 (rawOf vx vy vz a) := by
    rw [afterSamples_windowList, List.drop_left' (by simp), List.map_replicate]
  have hsum : ringSum (afterSamples (List.replicate 16 (vx, vy, vz)) s) a = 16 * (rawOf vx vy vz a).toInt := by
    rw [ringSum_eq_windowList_sum, hwin, List.map_replicate, List.sum_replicate, nsmul_eq_mul, Nat.cast_ofNat]
  have hmeans : MeansCurrent (afterSamples (List.replicate 16 (vx, vy, vz)) s) := by
    rw [List.replicate_succ, afterSamples_cons]
    exact meansCurrent_afterSamples _ (meansCurrent_sampleOp vx vy vz s)
  apply BitVec.eq_of_toInt_eq
  rw [hmeans a, hsum]
  exact Int.mul_tdiv_cancel_left _ (by decide)

/-- Settles O41: the 16 samples are all that the means are taken of. -/
theorem constantInputIsItsOwnMean : Obligations.ConstantInputIsItsOwnMean := by
  intro vx vy vz s
  refine ⟨afterSamples (List.replicate 16 (vx, vy, vz)) s, ?_, afterSamples_constant_sm vx vy vz s .x,
    afterSamples_constant_sm vx vy vz s .y, afterSamples_constant_sm vx vy vz s .z⟩
  rw [← runInstrs_samples, List.map_replicate]

end Sys2Proof.Machine

/-! The classifier: what its sub-operations leave on the wires (42_classifier.md). -/

namespace Sys2Proof.Machine

/-! ### R110, R111: the magnitudes and the remap -/

/-- The magnitude of a 16-bit value, which reaches 32768 for -32768 only (R110). -/
theorem sample_natAbs_le (v : Sample) : v.toInt.natAbs ≤ 32768 := by
  have h := sample_toInt_bounds v
  omega

section Remap

variable {x y z : Int} {ax ay az : Nat}

theorem remapXY_of_x_dominant (h : az < ax ∧ ay < ax) :
    remapXY x y z ax ay az = (if 0 < x then -z else z, 0) := if_pos h

theorem remapXY_of_y_dominant (h : ax < ay ∧ az < ay) :
    remapXY x y z ax ay az = (0, if 0 < y then -z else z) := by
  have hx : ¬(az < ax ∧ ay < ax) := fun hx => lt_asymm h.1 hx.2
  rw [remapXY, if_neg hx, if_pos h]

/-- The remap is the identity where z is at least as large as both others, and at a tie of x and y (R111, R112). -/
theorem remapXY_of_not_dominant (h : (ax ≤ az ∧ ay ≤ az) ∨ ax = ay) : remapXY x y z ax ay az = (x, y) := by
  have hx : ¬(az < ax ∧ ay < ax) := by omega
  have hy : ¬(ax < ay ∧ az < ay) := by omega
  rw [remapXY, if_neg hx, if_neg hy]

end Remap

/-- CLS.REMAP leaves the remapped pair of the registered means on the wires. -/
theorem clsRemapOp_remXY (s : State) : ((clsRemapOp s).wires.remX, (clsRemapOp s).wires.remY) =
    remapXY s.x.sm.toInt s.y.sm.toInt s.z.sm.toInt s.wires.ax s.wires.ay s.wires.az := rfl

/-- Settles O21: the magnitudes fit in 16 bits, and each case of the remap has its own equation. -/
theorem absAndRemapLeaveTheirResults : Obligations.AbsAndRemapLeaveTheirResults := by
  constructor
  · intro s
    exact ⟨clsAbsOp s, rfl, Int.natCast_natAbs _, Int.natCast_natAbs _, Int.natCast_natAbs _,
      sample_natAbs_le s.x.sm, sample_natAbs_le s.y.sm, sample_natAbs_le s.z.sm, rfl, rfl, rfl, rfl⟩
  · intro s
    have hrem := clsRemapOp_remXY s
    refine ⟨clsRemapOp s, rfl, fun h => ?_, fun h => ?_, fun h => ?_, rfl, rfl, rfl, rfl⟩
    · exact Prod.mk.inj (hrem.trans (remapXY_of_x_dominant h))
    · exact (Prod.mk.inj (hrem.trans (remapXY_of_y_dominant h))).symm
    · exact Prod.mk.inj (hrem.trans (remapXY_of_not_dominant h))

/-! ### R113, R114: the threshold tests and the clamped intensities -/

/-- The center bit stands when neither remapped coordinate is beyond the threshold (R113). -/
theorem threshLeds_center_iff_abs_le (x' y' : Int) : (threshLeds x' y').center = true ↔ |x'| ≤ 10 ∧ |y'| ≤ 10 := by
  rw [threshLeds_center, decide_eq_true_iff, abs_le, abs_le, and_assoc]

theorem clamp_eq_max_min {a lo hi : Int} (h : lo ≤ hi) : clamp a lo hi = max lo (min hi a) := by
  unfold clamp; split_ifs <;> omega

theorem vertIntensity_toInt_eq_max_min (x' : Int) : (vertIntensity x').toInt = max (-100) (min 100 (-x')) :=
  (vertIntensity_toInt x').trans (clamp_eq_max_min (by decide))

theorem horizIntensity_toInt_eq_max_min (y' : Int) : (horizIntensity y').toInt = max (-100) (min 100 y') :=
  (horizIntensity_toInt y').trans (clamp_eq_max_min (by decide))

/-- CLS.THRESH leaves the tests of the remapped pair on the wires. -/
@[simp] theorem clsThreshOp_cand (s : State) :
    (clsThreshOp s).wires.cand = threshLeds s.wires.remX s.wires.remY := rfl

/-- Settles O22: the candidate is the threshold tests of the remapped pair, the intensities its clamped values. -/
theorem threshAndIntensLeaveTheirResults : Obligations.ThreshAndIntensLeaveTheirResults := by
  constructor
  · intro s
    have hcenter := threshLeds_center_iff_abs_le s.wires.remX s.wires.remY
    exact ⟨clsThreshOp s, rfl, by simp, by simp, by simp, by simp, hcenter, rfl, rfl, rfl, rfl⟩
  · intro s
    exact ⟨clsIntensOp s, rfl, vertIntensity_toInt_eq_max_min _, horizIntensity_toInt_eq_max_min _, rfl, rfl, rfl, rfl⟩

end Sys2Proof.Machine

/-! The scheduler: what TICK and its events do, the period relation they keep, and the down-counting form (43_pwm.md). -/

namespace Sys2Proof.Machine

open Sys2Proof.Safety

/-! ### R130 to R133: TICK and its events -/

/-- Inside a period a TICK advances the counter, then raises the compare events that are due, A before B (R130). -/
theorem tickOp_eq_compares {s : State} (h : nextCount s.cnt ≠ 0) :
    tickOp s =
      let s1 : State := { s with cnt := nextCount s.cnt }
      let s2 := if nextCount s.cnt = s.thrA then pwmCmpAOp s1 else s1
      if nextCount s.cnt = s.thrB then pwmCmpBOp s2 else s2 := by
  have keepsThrB (u : State) : (if nextCount s.cnt = s.thrA then pwmCmpAOp u else u).thrB = u.thrB := by
    split_ifs <;> rfl
  rw [tickOp]; dsimp only; rw [if_neg h, keepsThrB]

/-- Settles O3: `c` is the advanced counter, and each of the five cases is one branch of TICK. -/
theorem tickRaisesTheDueEvents : Obligations.TickRaisesTheDueEvents := by
  intro s c hc
  obtain rfl : c = nextCount s.cnt := BitVec.eq_of_toNat_eq (hc.trans (nextCount_toNat s.cnt).symm)
  have htick : exec .tick s = .next (tickOp s) := rfl
  have hne (h0 : (nextCount s.cnt).toNat ≠ 0) : nextCount s.cnt ≠ 0 := fun e => h0 (congrArg BitVec.toNat e)
  rw [htick]
  refine ⟨fun h0 => ?_, fun h0 hA hB => ?_, fun h0 hA hB => ?_, fun h0 hA hB => ⟨_, rfl, ?_⟩, fun h0 hA hB => ?_⟩
  · have h : nextCount s.cnt = 0 := BitVec.eq_of_toNat_eq h0
    rw [tickOp_of_period_start h, h]; rfl
  all_goals
    rw [tickOp_eq_compares (hne h0)]
    dsimp only
  · rw [if_pos hA, if_neg hB]; rfl
  · rw [if_neg hA, if_pos hB]; rfl
  · rw [if_pos hA, if_pos hB]; rfl
  · rw [if_neg hA, if_neg hB]

/-- Settles O5: each bit and each threshold by the law of the set or load that writes it. -/
theorem periodStartLightsBySignAndLoadsThresholds : Obligations.PeriodStartLightsBySignAndLoadsThresholds := fun s =>
  ⟨pwmPeriodOp s, rfl, setBySign_down .., setBySign_up .., setBySign_right .., setBySign_left .., setBySign_center ..,
    thresholdOf_toNat, thresholdOf_toNat, rfl, drivePorts_driven rfl, lanesKept_of_lane_eq (pwmPeriodOp_lane s),
    rfl, rfl, rfl⟩

/-- Settles O7: the event clears the pair in both registers, then drives the ports. -/
theorem compareAClearsTheVerticalPair : Obligations.CompareAClearsTheVerticalPair := fun s =>
  ⟨pwmCmpAOp s, rfl, rfl, rfl, drivePorts_driven rfl, lanesKept_of_lane_eq (pwmCmpAOp_lane s), rfl, rfl, rfl, rfl, rfl⟩

/-- Settles O8: the event clears the pair in both registers, then drives the ports. -/
theorem compareBClearsTheHorizontalPair : Obligations.CompareBClearsTheHorizontalPair := fun s =>
  ⟨pwmCmpBOp s, rfl, rfl, rfl, drivePorts_driven rfl, lanesKept_of_lane_eq (pwmCmpBOp_lane s), rfl, rfl, rfl, rfl, rfl⟩

/-- A counter inside a period is never 0 and never 100 or more, so it meets no threshold at the ends (R130, V3). -/
theorem nextCount_ne_of_end {c thr : Count} (h0 : nextCount c ≠ 0) (hthr : thr.toNat = 0 ∨ 100 ≤ thr.toNat) :
    nextCount c ≠ thr := by
  rintro rfl
  rw [Ne, nextCount_eq_zero] at h0
  rw [nextCount_toNat] at hthr
  omega

theorem afterCompares_vertical_of_ne {s : State} (h : nextCount s.cnt ≠ s.thrA) (l : Leds) :
    (afterCompares s l).up = l.up ∧ (afterCompares s l).down = l.down := by
  constructor <;> rw [Bool.eq_iff_iff] <;> simp [h]

theorem afterCompares_horizontal_of_ne {s : State} (h : nextCount s.cnt ≠ s.thrB) (l : Leds) :
    (afterCompares s l).left = l.left ∧ (afterCompares s l).right = l.right := by
  constructor <;> rw [Bool.eq_iff_iff] <;> simp [h]

/-- Settles O9: the counter meets neither threshold, so no compare event is due to its pair. -/
theorem thresholdsAtTheEndsRaiseNothing : Obligations.ThresholdsAtTheEndsRaiseNothing := by
  intro s t he hcnt
  obtain rfl : tickOp s = t := Host.Outcome.next.inj he
  rw [tickOp_cnt] at hcnt
  have h0 : nextCount s.cnt ≠ 0 := fun e => hcnt (congrArg BitVec.toNat e)
  obtain ⟨-, -, hled, hout⟩ := tickOp_within_period h0
  rw [hled, hout]
  constructor
  · intro hA
    have keeps := afterCompares_vertical_of_ne (nextCount_ne_of_end h0 hA)
    exact ⟨(keeps _).1, (keeps _).2, keeps _⟩
  · intro hB
    have keeps := afterCompares_horizontal_of_ne (nextCount_ne_of_end h0 hB)
    exact ⟨(keeps _).1, (keeps _).2, keeps _⟩

/-! ### R137: the registers a TICK reads -/

/-- Settles O52: a period start reads the shared registers, the compares the scheduler's own. -/
theorem tickIsBlindToTheLanes : Obligations.TickIsBlindToTheLanes := by
  rintro s s' ⟨hled, hvint, hhint⟩ ⟨hcnt, hthrA, hthrB, hout⟩
  refine ⟨tickOp s, tickOp s', rfl, rfl, ?_⟩
  by_cases h0 : nextCount s.cnt = 0
  · rw [tickOp_of_period_start h0, tickOp_of_period_start (hcnt ▸ h0)]
    simp [SharedKept, SchedulerKept, hled, hvint, hhint]
  · obtain ⟨eA, eB, eled, eout⟩ := tickOp_within_period h0
    obtain ⟨eA', eB', eled', eout'⟩ := tickOp_within_period (s := s') (hcnt ▸ h0)
    have hcmp (l : Leds) : afterCompares s' l = afterCompares s l := by simp only [afterCompares, hcnt, hthrA, hthrB]
    exact ⟨⟨by rw [eled', hcmp, hled, eled], by simp [hvint], by simp [hhint]⟩,
      by simp [hcnt], by rw [eA', hthrA, eA], by rw [eB', hthrB, eB], by rw [eout', hcmp, hout, eout]⟩

/-! ### R136: the down-counting form -/

@[simp] theorem decrement_toNat (c : Count) : (decrement c).toNat = c.toNat - 1 := by
  unfold decrement
  split_ifs with h
  · simp [h]
  · have : c.toNat ≠ 0 := fun e => h (BitVec.eq_of_toNat_eq e)
    have := c.isLt
    rw [BitVec.toNat_sub_of_le (by simp [BitVec.le_def]; omega)]; rfl

theorem expires_iff (c : Count) : expires c = true ↔ c.toNat = 1 := by
  have zero (v : Count) : v = 0 ↔ v.toNat = 0 := BitVec.toNat_inj.symm
  simp only [expires, Bool.and_eq_true, bne_iff_ne, beq_iff_eq, Ne, zero, decrement_toNat]
  omega

/-- A down-counter that holds the rest of its threshold expires when the advanced counter meets the threshold. -/
theorem expires_iff_due {c thr down : Count} (h0 : nextCount c ≠ 0) (hc : c.toNat ≤ 99)
    (hdown : down.toNat = thr.toNat - c.toNat) : expires down = true ↔ nextCount c = thr := by
  rw [Ne, nextCount_eq_zero] at h0
  rw [expires_iff, ← BitVec.toNat_inj, nextCount_toNat]
  omega

theorem downTick_of_period_start {d : DownCount} (h : nextCount d.st.cnt = 0) :
    (downTick d).st = tickOp d.st ∧ (downTick d).downA = thresholdOf d.st.vint ∧
    (downTick d).downB = thresholdOf d.st.hint := by
  simp only [downTick, tickOp, if_pos h, and_self]

/-- Inside a period the down-counting TICK is TICK, with the counters decremented. -/
theorem downTick_within_period {d : DownCount} (hd : d.Agrees) (hcnt : d.st.cnt.toNat ≤ 99)
    (h : nextCount d.st.cnt ≠ 0) :
    (downTick d).st = tickOp d.st ∧ (downTick d).downA = decrement d.downA ∧
    (downTick d).downB = decrement d.downB := by
  obtain ⟨hA, hB⟩ := hd
  rw [tickOp_eq_compares h]
  simp only [downTick, if_neg h, expires_iff_due h hcnt hA, expires_iff_due h hcnt hB, and_self]

/-- Settles O53: a period start loads the counters as thresholds; inside a period each counter expires exactly when its
compare event is due. -/
theorem downCountingFormIsEquivalent : Obligations.DownCountingFormIsEquivalent := by
  rintro d hd ⟨hcnt, -, -⟩ -
  by_cases h0 : nextCount d.st.cnt = 0
  · obtain ⟨hst, hA, hB⟩ := downTick_of_period_start h0
    refine ⟨congrArg Host.Outcome.next hst.symm, ?_⟩
    rw [DownCount.Agrees, hst, hA, hB, tickOp_of_period_start h0]
    exact ⟨rfl, rfl⟩
  · obtain ⟨hst, hA, hB⟩ := downTick_within_period hd hcnt h0
    obtain ⟨eA, eB, -, -⟩ := tickOp_within_period h0
    obtain ⟨hdownA, hdownB⟩ := hd
    refine ⟨congrArg Host.Outcome.next hst.symm, ?_⟩
    rw [nextCount_eq_zero] at h0
    rw [DownCount.Agrees, hst, hA, hB, eA, eB, tickOp_cnt, nextCount_toNat, decrement_toNat, decrement_toNat]
    omega

/-! ### R134: the period relation -/

/-- The period relation is about the scheduler's registers only. -/
theorem inPeriod_of_schedulerKept {V H : Int} {center : Bool} {s t : State} (hk : SchedulerKept s t)
    (h : InPeriod V H center s) : InPeriod V H center t := by
  obtain ⟨hcnt, hA, hB, hout⟩ := hk
  exact ⟨hcnt ▸ h.counter, hA ▸ h.thresholdA, hB ▸ h.thresholdB, hout ▸ hcnt ▸ h.litUp, hout ▸ hcnt ▸ h.litDown,
    hout ▸ hcnt ▸ h.litLeft, hout ▸ hcnt ▸ h.litRight, hout ▸ h.litCenter⟩

theorem inPeriod_resetOp (s : State) : InPeriod 0 0 false (resetOp s) :=
  ⟨by simp [Regs.reset], rfl, rfl, rfl, rfl, rfl, rfl, rfl⟩

/-- One LED at a period start: where its bit stands only with its sign `P`, the set by sign lights it exactly if `P`
holds, and then its magnitude is not 0. -/
theorem lit_of_set {P : Prop} [Decidable P] {lit : Bool} {V : Int} (hlit : lit = true → P) (hV : P → V ≠ 0) :
    (lit || decide P) = decide (P ∧ 0 < V.natAbs) := by
  rw [Bool.eq_iff_iff, Bool.or_eq_true, decide_eq_true_iff, decide_eq_true_iff, Int.natAbs_pos]
  exact ⟨fun h => have hP := h.elim hlit id; ⟨hP, hV hP⟩, fun h => .inr h.1⟩

/-- At a period start no bit of `led` stands against its sign, so the sets by sign light exactly the chosen LEDs. -/
theorem inPeriod_tickOp_start {s : State} (h : Invariant35 s) (h0 : nextCount s.cnt = 0) :
    InPeriod s.vint.toInt s.hint.toInt s.led.center (tickOp s) := by
  obtain ⟨hA, hB⟩ := intensitiesInRange_thresholds h.intensities
  obtain ⟨hup, hdown, hright, hleft⟩ := h.ledSigns
  rw [tickOp_of_period_start h0]
  exact {
    counter := by simp
    thresholdA := hA
    thresholdB := hB
    litUp := (setBySign_up ..).trans (lit_of_set hup fun h => h.ne)
    litDown := (setBySign_down ..).trans (lit_of_set hdown fun h => h.ne')
    litLeft := (setBySign_left ..).trans (lit_of_set hleft fun h => h.ne)
    litRight := (setBySign_right ..).trans (lit_of_set hright fun h => h.ne')
    litCenter := setBySign_center .. }

/-- One LED over one count: lit before, and not turned off now, is lit while the advanced counter is below its
magnitude. -/
theorem lit_of_compare {P : Prop} [Decidable P] {c thr : Count} {M : Nat} {lit lit' : Bool} (hc : c.toNat < 99)
    (hthr : thr.toNat = M) (hlit : lit = decide (P ∧ c.toNat < M))
    (hlit' : lit' = true ↔ lit = true ∧ nextCount c ≠ thr) : lit' = decide (P ∧ (nextCount c).toNat < M) := by
  subst hthr hlit
  rw [Bool.eq_iff_iff, hlit', decide_eq_true_iff, decide_eq_true_iff, and_assoc, Ne, ← BitVec.toNat_inj,
    nextCount_toNat]
  exact and_congr_right fun _ => by omega

/-- Inside a period a compare event turns a pair off at its magnitude. -/
theorem inPeriod_tickOp_within {V H : Int} {center : Bool} {s : State} (h : InPeriod V H center s)
    (h99 : s.cnt.toNat ≠ 99) : InPeriod V H center (tickOp s) := by
  have hc : s.cnt.toNat < 99 := lt_of_le_of_ne h.counter h99
  have h0 : nextCount s.cnt ≠ 0 := by rw [Ne, nextCount_eq_zero]; omega
  obtain ⟨hA, hB, -, hout⟩ := tickOp_within_period h0
  constructor <;> simp only [tickOp_cnt, hA, hB, hout]
  case counter => rw [nextCount_toNat]; omega
  case thresholdA => exact h.thresholdA
  case thresholdB => exact h.thresholdB
  case litUp => exact lit_of_compare hc h.thresholdA h.litUp (afterCompares_up ..)
  case litDown => exact lit_of_compare hc h.thresholdA h.litDown (afterCompares_down ..)
  case litLeft => exact lit_of_compare hc h.thresholdB h.litLeft (afterCompares_left ..)
  case litRight => exact lit_of_compare hc h.thresholdB h.litRight (afterCompares_right ..)
  case litCenter => rw [afterCompares_center]; exact h.litCenter

/-! ### R134: what a step does to the scheduler's registers -/

theorem tickPart_of_tick {w : Stimulus} (h : givesTick w = true) (s : State) : tickPart w s = tickOp s := if_pos h

theorem tickPart_of_no_tick {w : Stimulus} (h : givesTick w ≠ true) (s : State) : tickPart w s = s := if_neg h

theorem not_givesReset_of_givesTick {w : Stimulus} (h : givesTick w = true) : givesReset w = false := by
  simp only [givesTick, Bool.and_eq_true, Bool.not_eq_true'] at h
  obtain ⟨⟨-, hrst⟩, -⟩ := h
  rw [givesReset, hrst, Bool.and_false]

theorem step_of_reset {s t : State} (h : step s = .next t) (hr : givesReset (takeWord s).1 = true) :
    ∃ ws : List Stimulus, t = resetOp { s with stim := ws } := by
  obtain ⟨w, ws, hw, -, hc⟩ := step_cases h
  rw [hw] at hr
  rcases hc with ⟨-, ht⟩ | ⟨hr', -⟩ | ⟨hr', -⟩
  · exact ⟨ws, ht⟩
  all_goals rw [hr] at hr'; cases hr'

/-- To the scheduler's registers a step without RESET is the tick in its word, or nothing. -/
theorem step_scheduler {s t : State} (h : step s = .next t) (hr : givesReset (takeWord s).1 = false) :
    SchedulerKept (tickPart (takeWord s).1 s) t := by
  obtain ⟨w, ws, hw, -, hc⟩ := step_cases h
  rw [hw] at hr ⊢
  have hpart : SchedulerKept (tickPart w s) (tickPart w { s with stim := ws }) := by
    unfold tickPart
    split_ifs
    · rw [tickOp_of_stim s ws]; exact ⟨rfl, rfl, rfl, rfl⟩
    · exact ⟨rfl, rfl, rfl, rfl⟩
  rcases hc with ⟨hr', -⟩ | ⟨-, -, rx, ry, rz, rfl⟩ | ⟨-, -, rfl⟩
  · rw [hr] at hr'; cases hr'
  · exact hpart
  · exact hpart

theorem step_keeps_inPeriod {V H : Int} {center : Bool} {s t : State} (hs : InPeriod V H center s)
    (h : step s = .next t) (hr : givesReset (takeWord s).1 = false)
    (hstart : ¬(givesTick (takeWord s).1 = true ∧ s.cnt.toNat = 99)) : InPeriod V H center t := by
  refine inPeriod_of_schedulerKept (step_scheduler h hr) ?_
  by_cases htick : givesTick (takeWord s).1 = true
  · rw [tickPart_of_tick htick]
    exact inPeriod_tickOp_within hs fun h99 => hstart ⟨htick, h99⟩
  · rwa [tickPart_of_no_tick htick]

/-- Settles O49: RESET leaves zero intensities' relation, a period start takes the one in force, and inside a period the
compare events keep it. -/
theorem periodRelationIsEstablishedAndKept : Obligations.PeriodRelationIsEstablishedAndKept := by
  refine ⟨fun s t h hr => ?_, fun s t hinv h99 h htick => ?_, fun V H center s t => step_keeps_inPeriod⟩
  · obtain ⟨ws, rfl⟩ := step_of_reset h hr
    exact inPeriod_resetOp _
  · have h0 : nextCount s.cnt = 0 := by rw [nextCount_eq_zero, h99]
    have hk := step_scheduler h (not_givesReset_of_givesTick htick)
    rw [tickPart_of_tick htick] at hk
    exact inPeriod_of_schedulerKept hk (inPeriod_tickOp_start hinv h0)

/-! ### R134: the duty law over a stretch of words -/

theorem takeWord_stim (s : State) : (takeWord s).2.stim = s.stim.tail := by
  cases hs : s.stim with
  | nil => rw [takeWord_nil hs, hs]; rfl
  | cons w rest => rw [takeWord_cons hs]; rfl

theorem step_stim {s t : State} (h : step s = .next t) : t.stim = s.stim.tail := by
  obtain ⟨i, -, he⟩ := step_next_cases h
  obtain ⟨f, hf, hexec⟩ := exec_streamBlind i
  obtain rfl := Host.Outcome.next.inj ((hexec _).symm.trans he)
  rw [hf.keeps_stim, takeWord_stim]

/-- Inside a period the counter counts the ticks (R26). -/
theorem step_cnt_toNat {s t : State} (h : step s = .next t) (hr : givesReset (takeWord s).1 = false)
    (hcnt : s.cnt.toNat + (if givesTick (takeWord s).1 then 1 else 0) ≤ 99) :
    t.cnt.toNat = s.cnt.toNat + if givesTick (takeWord s).1 then 1 else 0 := by
  rw [(step_scheduler h hr).1]
  unfold tickPart
  split_ifs at hcnt ⊢
  · rw [tickOp_cnt, nextCount_toNat]; omega
  · rfl

theorem runSteps_succ_next {n : Nat} {s t : State} (h : runSteps (n + 1) s = .next t) :
    ∃ u, step s = .next u ∧ runSteps n u = .next t := by
  rw [runSteps] at h
  split at h
  · exact ⟨_, by assumption, h⟩
  all_goals cases h

/-- A stretch of words that neither resets nor ends the period keeps the period relation and counts its ticks. -/
theorem runSteps_keeps_inPeriod {V H : Int} {center : Bool} (n : Nat) : ∀ {s t : State}, InPeriod V H center s →
    runSteps n s = .next t → noReset (s.stim.take n) = true → s.cnt.toNat + ticksIn (s.stim.take n) ≤ 99 →
    InPeriod V H center t ∧ t.cnt.toNat = s.cnt.toNat + ticksIn (s.stim.take n) := by
  induction n with
  | zero =>
    intro s t hs h _ _
    obtain rfl := Host.Outcome.next.inj h
    exact ⟨hs, rfl⟩
  | succ n ih =>
    intro s t hs h hr hcnt
    obtain ⟨u, hu, ht⟩ := runSteps_succ_next h
    have hstim := step_stim hu
    cases hw : s.stim with
    | nil =>
      obtain rfl : s = u := Host.Outcome.next.inj ((step_of_empty hw).symm.trans hu)
      simpa [hw] using ih hs ht (by simp [hw, noReset]) (by simpa [hw, ticksIn] using hs.counter)
    | cons w rest =>
      have hword : (takeWord s).1 = w := by rw [takeWord_cons hw]
      rw [hw, List.tail_cons] at hstim
      simp only [hw, List.take_succ_cons, noReset, List.all_cons, Bool.and_eq_true, Bool.not_eq_true'] at hr
      simp only [hw, List.take_succ_cons, ticksIn, List.countP_cons] at hcnt ⊢
      obtain ⟨hrw, hrest⟩ := hr
      have hstep := step_cnt_toNat hu (hword ▸ hrw) (by rw [hword]; omega)
      rw [hword] at hstep
      have hwithin : ¬(givesTick (takeWord s).1 = true ∧ s.cnt.toNat = 99) := by
        rw [hword]; rintro ⟨htick, h99⟩; rw [if_pos htick] at hcnt; omega
      have hu' := step_keeps_inPeriod hs hu (hword ▸ hrw) hwithin
      obtain ⟨hin, hcount⟩ := ih hu' ht (by rwa [hstim]) (by rw [hstim, ticksIn]; omega)
      refine ⟨hin, ?_⟩
      rw [hcount, hstim, ticksIn]; omega

/-- Settles O48: the period start establishes the relation at count 0, and the words up to the `k`-th tick keep it. -/
theorem dutyIsTheMagnitudeOfTheIntensity : Obligations.DutyIsTheMagnitudeOfTheIntensity := by
  rintro s s1 t n k hinv h99 he hrun hreset rfl hk
  obtain rfl : tickOp s = s1 := Host.Outcome.next.inj he
  have h0 : nextCount s.cnt = 0 := by rw [nextCount_eq_zero, h99]
  have hcnt : (tickOp s).cnt.toNat = 0 := by rw [tickOp_cnt, h0]; rfl
  obtain ⟨hin, hcount⟩ := runSteps_keeps_inPeriod n (inPeriod_tickOp_start hinv h0) hrun hreset (by omega)
  rw [hcnt, Nat.zero_add] at hcount
  rw [← hcount]
  exact ⟨rfl, hin.litUp, hin.litDown, hin.litLeft, hin.litRight, hin.litCenter⟩

end Sys2Proof.Machine

/-! The Port Driver: the mapping for every allowed choice of the parameters, and PORTMAP (44_port_driver.md). -/

namespace Sys2Proof.Machine

open Sys2Proof.Safety

/-! ### R150: the level of an LED, and the positions that lie in the port -/

/-- A lit LED has the level `LED_ON_LEVEL`, a dark one the other. -/
theorem lvl_eq_beq (p : PortParams) (b : Bool) : lvl p b = (b == p.ledOnLevel) := by
  unfold lvl
  cases p.ledOnLevel <;> simp

/-- Every LED position of an allowed choice is a bit of its port. -/
theorem positions_lt_of_valid {p : PortParams} (h : p.valid = true) :
    p.paCenter < p.portW ∧ p.paRight < p.portW ∧ p.paUp < p.portW ∧ p.pbDown < p.portW ∧ p.pbLeft < p.portW := by
  simp [PortParams.valid] at h
  omega

/-! ### R152: applying the mapping twice

The second application finds every LED bit at its level already, and both keep the other bits. -/

theorem portAMap_idempotent {w : Nat} (p : PortParams) (o : Leds) (old : BitVec w) (hc : p.paCenter < w)
    (hr : p.paRight < w) (hu : p.paUp < w) : portAMap p o (portAMap p o old) = portAMap p o old := by
  refine BitVec.eq_of_getLsbD_eq fun q _ => ?_
  simp only [portAMap_getLsbD p o _ hc hr hu]
  split_ifs <;> rfl

theorem portBMap_idempotent {w : Nat} (p : PortParams) (o : Leds) (old : BitVec w) (hd : p.pbDown < w)
    (hl : p.pbLeft < w) : portBMap p o (portBMap p o old) = portBMap p o old := by
  refine BitVec.eq_of_getLsbD_eq fun q _ => ?_
  simp only [portBMap_getLsbD p o _ hd hl]
  split_ifs <;> rfl

/-! ### The statements about the Port Driver -/

/-- Settles O10: the positions lie in the port, so the mapping is what it does to each bit. -/
theorem portMappingKeepsForeignBits : Obligations.PortMappingKeepsForeignBits := by
  intro p out oldA oldB hvalid
  obtain ⟨hc, hr, hu, hd, hl⟩ := positions_lt_of_valid hvalid
  refine ⟨fun q => ?_, fun q => ?_, portAMap_idempotent p out oldA hc hr hu, portBMap_idempotent p out oldB hd hl⟩
  · rw [portAMap_getLsbD p out oldA hc hr hu]
    simp only [lvl_eq_beq]
  · rw [portBMap_getLsbD p out oldB hd hl]
    simp only [lvl_eq_beq]

/-- Settles O11: PORTMAP is one drive of the two ports. -/
theorem portMapDrivesOnlyTheLedBits : Obligations.PortMapDrivesOnlyTheLedBits := fun s =>
  ⟨drivePorts s, rfl, drivePorts_driven rfl, rfl⟩

end Sys2Proof.Machine

/-! The system operations: SAMPLE and its parts, the raw and the TICK forms, and the step (45_system_ops.md). -/

namespace Sys2Proof.Machine

open Sys2Proof.Safety

/-! ### R161, R167: IDLE and COMMIT -/

/-- Settles O2: IDLE's operation is the identity. -/
theorem idleChangesNothing : Obligations.IdleChangesNothing := fun _ => rfl

@[simp] theorem commitOp_lane (s : State) (a : Axis) : (commitOp s).lane a = s.lane a := by cases a <;> rfl

/-- Settles O23: COMMIT is one write of the three shared registers. -/
theorem commitPublishesTheCandidate : Obligations.CommitPublishesTheCandidate := fun s =>
  ⟨commitOp s, rfl, rfl, rfl, rfl, lanesKept_of_lane_eq (commitOp_lane s), ⟨rfl, rfl, rfl, rfl⟩, rfl, rfl, rfl⟩

/-! ### R162: the whole pipeline -/

/-- R111 on three values: the dominant-axis remap `x'`, `y'` with their own magnitudes. -/
def remapped (x y z : Int) : Int × Int := remapXY x y z x.natAbs y.natAbs z.natAbs

section Remapped

variable {x y z : Int}

theorem remapped_of_x_dominant (h : |z| < |x| ∧ |y| < |x|) : remapped x y z = (if 0 < x then -z else z, 0) :=
  remapXY_of_x_dominant (by simpa only [Int.abs_eq_natAbs, Nat.cast_lt] using h)

theorem remapped_of_y_dominant (h : |x| < |y| ∧ |z| < |y|) : remapped x y z = (0, if 0 < y then -z else z) :=
  remapXY_of_y_dominant (by simpa only [Int.abs_eq_natAbs, Nat.cast_lt] using h)

theorem remapped_of_not_dominant (hx : ¬(|z| < |x| ∧ |y| < |x|)) (hy : ¬(|x| < |y| ∧ |z| < |y|)) :
    remapped x y z = (x, y) := by
  simp only [Int.abs_eq_natAbs, Nat.cast_lt] at hx hy
  exact remapXY_of_not_dominant (by omega)

end Remapped

/-- What a SAMPLE publishes comes from the remapped pair `x'`, `y'` of its new means (R111, R162). -/
theorem sampleOp_publishes_remapped (rx ry rz : Sample) (s : State) : ∃ x' y' : Int,
    remapped (sampleOp rx ry rz s).x.sm.toInt (sampleOp rx ry rz s).y.sm.toInt (sampleOp rx ry rz s).z.sm.toInt =
      (x', y') ∧
    (sampleOp rx ry rz s).led = threshLeds x' y' ∧ (sampleOp rx ry rz s).vint = vertIntensity x' ∧
    (sampleOp rx ry rz s).hint = horizIntensity y' := by
  obtain ⟨hled, hvint, hhint⟩ := sampleOp_committed rx ry rz s
  exact ⟨_, _, rfl, hled, hvint, hhint⟩

theorem threshLeds_center_iff_none (x' y' : Int) :
    (threshLeds x' y').center = true ↔ ¬(x' > 10 ∨ x' < -10 ∨ y' > 10 ∨ y' < -10) := by
  rw [threshLeds_center, decide_eq_true_iff]; omega

theorem sampleOp_memRead_at_cursor (rx ry rz : Sample) (s : State) (a : Axis) :
    memRead (sampleOp rx ry rz s) a (slotOf (s.lane a).cur) = rawOf rx ry rz a := by
  rw [sampleOp_memRead, if_pos rfl]

/-- The mean of a SAMPLE over the slots as they then are (R101, R162). -/
theorem sampleOp_sm_toInt (rx ry rz : Sample) (s : State) (a : Axis) :
    ((sampleOp rx ry rz s).lane a).sm.toInt = Int.tdiv (∑ i : Slot, (memRead (sampleOp rx ry rz s) a i).toInt) 16 := by
  rw [sampleOp_sm, ringMean_toInt, ringSum_eq_sum, tdiv]

/-- Settles O12: push and mean lane by lane, then the remapped pair of the new means decides what is published. -/
theorem sampleRunsTheWholePipeline : Obligations.SampleRunsTheWholePipeline := by
  intro rx ry rz s
  have hslot := sampleOp_memRead_at_cursor rx ry rz s
  obtain ⟨x', y', hremap, hled, hvint, hhint⟩ := sampleOp_publishes_remapped rx ry rz s
  refine ⟨sampleOp rx ry rz s, rfl, hslot .x, hslot .y, hslot .z, fun a => ⟨fun i hi => ?_, ?_, ?_⟩,
    ⟨x', y', ⟨fun h => ?_, fun h => ?_, fun h => ?_⟩, ?_⟩, ⟨rfl, rfl, rfl, rfl⟩, rfl, rfl, rfl⟩
  · rw [sampleOp_memRead, if_neg hi]
  · rw [sampleOp_cur, nextCursor_toNat]
  · exact sampleOp_sm_toInt rx ry rz s a
  · exact Prod.mk.inj (hremap.symm.trans (remapped_of_x_dominant h))
  · exact (Prod.mk.inj (hremap.symm.trans (remapped_of_y_dominant h.2))).symm
  · exact Prod.mk.inj (hremap.symm.trans (remapped_of_not_dominant h.1 h.2))
  · rw [hled, hvint, hhint]
    exact ⟨by simp, by simp, by simp, by simp, threshLeds_center_iff_none x' y', vertIntensity_toInt_eq_max_min x',
      horizIntensity_toInt_eq_max_min y'⟩

/-- SAMPLE's sub-operations, run as instructions, leave what SAMPLE leaves before its values inside vanish. -/
theorem runInstrs_subOperations (rx ry rz : Sample) (s : State) :
    runInstrs [.filtPush .x rx, .filtPush .y ry, .filtPush .z rz, .filtMean .x, .filtMean .y, .filtMean .z,
      .clsAbs, .clsRemap, .clsThresh, .clsIntens, .commit] s =
      .next (commitOp (classifySample (filterSample rx ry rz s))) := rfl

/-- Settles O24: the two runs differ in the wires only. -/
theorem sampleIsItsSubOperations : Obligations.SampleIsItsSubOperations := fun rx ry rz s =>
  ⟨sampleOp rx ry rz s, _, rfl, runInstrs_subOperations rx ry rz s, rfl, rfl, rfl, rfl⟩

/-! ### R163 to R165: the raw form, and the forms with a TICK -/

theorem sampleRawOp_of_accept {nd : NdFlags} (h : nd = 0b111) (b0 b1 b2 b3 b4 b5 : Byte) (s : State) :
    sampleRawOp nd b0 b1 b2 b3 b4 b5 s =
      sampleOp (unpackSample b0 b1) (unpackSample b2 b3) (unpackSample b4 b5) s :=
  (sampleRawOp_eq ..).trans (if_pos h)

theorem sampleRawOp_of_skip {nd : NdFlags} (h : nd ≠ 0b111) (b0 b1 b2 b3 b4 b5 : Byte) (s : State) :
    sampleRawOp nd b0 b1 b2 b3 b4 b5 s = s :=
  (sampleRawOp_eq ..).trans (if_neg h)

/-- Settles O14: the three samples are what UNPACK makes of the byte pairs. -/
theorem samplerIsSampleOfTheFieldsOrSkip : Obligations.SamplerIsSampleOfTheFieldsOrSkip := by
  intro nd b0 b1 b2 b3 b4 b5 s
  constructor
  · intro h
    refine ⟨_, _, _, _, congrArg Host.Outcome.next (sampleRawOp_of_accept h b0 b1 b2 b3 b4 b5 s), rfl,
      fun r hi lo hmem => ?_⟩
    have hr : r = unpackSample hi lo := by
      simp only [List.mem_cons, Prod.mk.injEq, List.not_mem_nil, or_false] at hmem
      rcases hmem with ⟨rfl, rfl, rfl⟩ | ⟨rfl, rfl, rfl⟩ | ⟨rfl, rfl, rfl⟩ <;> rfl
    rw [hr, unpackSample_toInt]
  · intro h
    exact congrArg Host.Outcome.next (sampleRawOp_of_skip h b0 b1 b2 b3 b4 b5 s)

/-- Settles O15: the operation is the composition of the two. -/
theorem tickSampleIsTickThenSample : Obligations.TickSampleIsTickThenSample := fun rx ry rz s =>
  ⟨tickOp s, sampleOp rx ry rz (tickOp s), rfl, rfl, rfl⟩

/-- Settles O16: the operation is the composition of the two, and a skip cycle leaves the TICK's state. -/
theorem tickSamplerIsTickThenSampler : Obligations.TickSamplerIsTickThenSampler := fun nd b0 b1 b2 b3 b4 b5 s =>
  ⟨tickOp s, sampleRawOp nd b0 b1 b2 b3 b4 b5 (tickOp s), rfl, rfl, rfl,
    fun h => sampleRawOp_of_skip h b0 b1 b2 b3 b4 b5 (tickOp s)⟩

/-- Settles O17: the SAMPLE leaves the scheduler's registers as the period start before it wrote them. -/
theorem tickSamplePeriodUsesOldIntensities : Obligations.TickSamplePeriodUsesOldIntensities := by
  intro rx ry rz s u hcnt hv hh he
  obtain rfl : sampleOp rx ry rz (tickOp s) = u := Host.Outcome.next.inj he
  have h0 : nextCount s.cnt = 0 := by rw [nextCount_eq_zero, hcnt]
  rw [tickOp_of_period_start h0]
  exact ⟨rfl, thresholdOf_toNat hv, thresholdOf_toNat hh, setBySign_center .., setBySign_up .., setBySign_down ..,
    setBySign_left .., setBySign_right ..⟩

/-! ### R160: the step -/

theorem exec_total (i : Instr) (s : State) : ∃ t : State, exec i s = .next t := by
  obtain ⟨f, -, he⟩ := exec_streamBlind i
  exact ⟨f s, he s⟩

theorem exec_tick_or_idle (tick : Bool) (s : State) :
    exec (if tick then .tick else .idle) s = .next (if tick then tickOp s else s) := by cases tick <;> rfl

theorem exec_tickSample_or_sample (tick : Bool) (rx ry rz : Sample) (s : State) :
    exec (if tick then .tickSample rx ry rz else .sample rx ry rz) s =
      exec (.sample rx ry rz) (if tick then tickOp s else s) := by cases tick <;> rfl

theorem exec_tickSampler_or_sampler (tick : Bool) (nd : NdFlags) (b0 b1 b2 b3 b4 b5 : Byte) (s : State) :
    exec (if tick then .tickSampler nd b0 b1 b2 b3 b4 b5 else .sampler nd b0 b1 b2 b3 b4 b5) s =
      exec (.sampler nd b0 b1 b2 b3 b4 b5) (if tick then tickOp s else s) := by cases tick <;> rfl

/-- Settles O32: the decoder's line for the word's bits, and `u` the state after the word's tick, if it has one. -/
theorem stepFollowsThePseudocode : Obligations.StepFollowsThePseudocode := by
  intro s w rest hs hlegal
  refine ⟨fun hrst => step_of_decode hs (decode_of_rst hlegal hrst), fun hrst =>
    ⟨if w.getLsbD 49 then tickOp { s with stim := rest } else { s with stim := rest }, fun htick => ?_, fun htick => ?_,
      fun hsmp => ?_, fun hsmp hraw => ?_, fun hsmp hraw => ?_⟩, ?_⟩
  · rw [if_pos htick]; rfl
  · rw [htick, if_neg Bool.false_ne_true]
  · rw [step_of_decode hs (decode_of_no_sample hlegal hrst hsmp), exec_tick_or_idle]
  · rw [step_of_decode hs (decode_of_sample hlegal hrst hsmp hraw), exec_tickSample_or_sample]
  · rw [step_of_decode hs (decode_of_burst hlegal hrst hsmp hraw), exec_tickSampler_or_sampler]
  · rw [step_of_decode hs (decode_legal hlegal)]
    exact exec_total _ _

end Sys2Proof.Machine

namespace Sys2Proof.Machine

/-! ### R180: totality -/

theorem step_total_of_legal {s : State} {w : Stimulus} {rest : List Stimulus} (hs : s.stim = w :: rest)
    (hlegal : w.getLsbD 55 = false) : ∃ t : State, step s = .next t := by
  rw [step_of_decode hs (decode_legal hlegal)]
  exact exec_total _ _

/-- Settles O33: a legal word decodes to an instruction and every instruction has a next state; the list of causes of a
fault is empty (R180). -/
theorem everyOperationIsTotal : Obligations.EveryOperationIsTotal :=
  ⟨exec_total, fun _ _ _ => step_total_of_legal, fun _ r => nomatch r⟩

end Sys2Proof.Machine

/-! RESET, and runs from the reset state (70_reset_and_hazards.md). -/

namespace Sys2Proof.Machine

open Sys2Proof.Safety

/-! ### R200: RESET -/

/-- Settles O1: R36's values, register by register, and the ports driven from them. -/
theorem resetGivesResetValues : Obligations.ResetGivesResetValues := fun s =>
  have hlane (a : Axis) := resetOp_lane s a
  have hoff : Leds.off.toBits = 0b00000 := by decide
  ⟨resetOp s, rfl, fun a => ⟨resetOp_memRead s a, congrArg Lane.cur (hlane a), congrArg Lane.sm (hlane a)⟩,
    hoff, rfl, rfl, rfl, rfl, rfl, hoff, drivePorts_driven rfl⟩

/-! ### Runs, word by word -/

/-- The induction over a run: what holds of a state and the words still to come, and passes to the next state and the
remaining words at each step, holds of the last state with no word left. -/
theorem runSteps_induction {P : List Stimulus → State → Prop}
    (hstep : ∀ {s t : State} {ws : List Stimulus}, P ((takeWord s).1 :: ws) s → step s = .next t → P ws t)
    (n : Nat) : ∀ {s t : State}, P (s.stim.take n) s → runSteps n s = .next t → P [] t := by
  induction n with
  | zero =>
    intro s t hs h
    obtain rfl := Host.Outcome.next.inj h
    exact hs
  | succ n ih =>
    intro s t hs h
    obtain ⟨u, hu, ht⟩ := runSteps_succ_next h
    refine ih ?_ ht
    rw [step_stim hu]
    cases hw : s.stim with
    | nil =>
      obtain rfl : s = u := Host.Outcome.next.inj ((step_of_empty hw).symm.trans hu)
      simpa [hw] using hs
    | cons w rest =>
      refine hstep ?_ hu
      rwa [takeWord_cons hw, List.tail_cons, ← List.take_succ_cons, ← hw]

/-! ### R201: the first period -/

/-- The period relation of zero intensities holds, and the words still to come end before the next period start. -/
def DarkFor (ws : List Stimulus) (s : State) : Prop :=
  InPeriod 0 0 false s ∧ s.cnt.toNat + ticksIn ws < 100

/-- A RESET on the way starts the dark period again; every other step only moves the counter in it. -/
theorem step_keeps_darkFor {s t : State} {ws : List Stimulus} (hs : DarkFor ((takeWord s).1 :: ws) s)
    (h : step s = .next t) : DarkFor ws t := by
  obtain ⟨hin, hcnt⟩ := hs
  simp only [ticksIn, List.countP_cons] at hcnt
  cases hr : givesReset (takeWord s).1 with
  | true =>
    obtain ⟨rest, rfl⟩ := step_of_reset h hr
    have hzero : (resetOp { s with stim := rest }).cnt.toNat = 0 := rfl
    exact ⟨inPeriod_resetOp _, by rw [hzero, ticksIn]; omega⟩
  | false =>
    have hwithin : ¬(givesTick (takeWord s).1 = true ∧ s.cnt.toNat = 99) := by
      rintro ⟨htick, h99⟩; rw [if_pos htick] at hcnt; omega
    exact ⟨step_keeps_inPeriod hin h hr hwithin, by rw [step_cnt_toNat h hr (by omega), ticksIn]; omega⟩

theorem out_toBits_of_inPeriod_dark {s : State} (h : InPeriod 0 0 false s) : s.out.toBits = 0b00000 := by
  simp [Leds.toBits, h.litCenter, h.litUp, h.litDown, h.litLeft, h.litRight]

/-- Settles O50: the reset state begins a dark period, and fewer than 100 ticks do not end it. -/
theorem firstPeriodAfterResetIsDark : Obligations.FirstPeriodAfterResetIsDark := by
  rintro _ t n ws rfl hrun hticks
  have hcnt : ({ State.reset with stim := ws } : State).cnt.toNat = 0 := rfl
  have hdark : DarkFor (ws.take n) { State.reset with stim := ws } :=
    ⟨inPeriod_resetOp { State.reset with portOps := 0, stim := ws }, by rwa [hcnt, Nat.zero_add]⟩
  exact out_toBits_of_inPeriod_dark (runSteps_induction step_keeps_darkFor n hdark hrun).1

/-! ### R202: no samples -/

/-- Every register but the counter is at its reset value. -/
def ResetButCounter (s : State) : Prop := s.toRegs = { Regs.reset with cnt := s.cnt }

/-- PWM.PERIOD as one write of the registers (R131). -/
theorem pwmPeriodOp_toRegs (s : State) : (pwmPeriodOp s).toRegs =
    { s.toRegs with
      led := setBySign s.vint s.hint s.led, out := setBySign s.vint s.hint s.led
      thrA := thresholdOf s.vint, thrB := thresholdOf s.hint } := rfl

/-- A period start loads thresholds 0 and lights nothing, and no compare event meets a threshold 0 (R130, R131). -/
theorem resetButCounter_tickOp {s : State} (h : ResetButCounter s) : ResetButCounter (tickOp s) := by
  have hA : s.thrA.toNat = 0 := by rw [h]; rfl
  have hB : s.thrB.toNat = 0 := by rw [h]; rfl
  by_cases h0 : nextCount s.cnt = 0
  · rw [tickOp_of_period_start h0]
    refine (pwmPeriodOp_toRegs _).trans ?_
    dsimp only
    rw [h]; rfl
  · rw [tickOp_eq_compares h0]
    dsimp only
    rw [if_neg (nextCount_ne_of_end h0 (.inl hA)), if_neg (nextCount_ne_of_end h0 (.inl hB))]
    exact congrArg (fun r : Regs => { r with cnt := nextCount s.cnt }) h

/-- The reset values hold but for the counter, and no word still to come gives a sample. -/
def UnsampledFor (ws : List Stimulus) (s : State) : Prop :=
  ResetButCounter s ∧ ∀ w ∈ ws, givesSample w = false

theorem step_keeps_unsampledFor {s t : State} {ws : List Stimulus} (hs : UnsampledFor ((takeWord s).1 :: ws) s)
    (h : step s = .next t) : UnsampledFor ws t := by
  obtain ⟨hregs, hnone⟩ := hs
  rw [List.forall_mem_cons] at hnone
  obtain ⟨hw, hrest⟩ := hnone
  refine ⟨?_, hrest⟩
  obtain ⟨w, rest, htake, -, hc⟩ := step_cases h
  rw [htake] at hw
  rcases hc with ⟨-, rfl⟩ | ⟨-, hsample, -⟩ | ⟨-, -, rfl⟩
  · exact resetOp_toRegs _
  · rw [hw] at hsample; cases hsample
  · unfold tickPart
    split_ifs
    · exact resetButCounter_tickOp hregs
    · exact hregs

/-- Settles O51: RESET and TICK are all that the words do, and neither moves anything but the counter. -/
theorem withoutSamplesOnlyTheCounterMoves : Obligations.WithoutSamplesOnlyTheCounterMoves := by
  rintro _ t n ws rfl hrun hnone
  have hreset : ResetButCounter { State.reset with stim := ws } := rfl
  exact (runSteps_induction step_keeps_unsampledFor n ⟨hreset, hnone⟩ hrun).1

end Sys2Proof.Machine
